-- ==== Sys2Proof/Word.lean ====
section
/-! DEFINITION. The word types: the 32-bit words of the command port, decoded samples, sample-buffer
handles and channel ids (spec/30_encoding.md R80, R81; spec/20_memory.md R61, R62). -/

namespace Sys2Proof

/-- A 32-bit word of the command port (R80). -/
abbrev Word := BitVec 32

/-- One decoded sample, signed, 16 bits (R62). -/
abbrev Sample := BitVec 16

/-- The opaque 32-bit name of a sample buffer, 0 the null handle (R61). -/
abbrev Handle := BitVec 32

/-- A channel id, `CMD[19:16]`, 0..15 (R20, R81). -/
abbrev ChanId := BitVec 4

end Sys2Proof
end

