-- ==== Sys2Proof/Syntax.lean ====
section
/-! DEFINITION. The transaction the command port presents and the thirteen commands, one constructor
per row of spec/opcode_table.json (spec/30_encoding.md R80, R83, R84). -/

namespace Sys2Proof

/-- One transaction of the command port: the command word `CMD` and the operand block `OP[0..12]` (R80). -/
structure Transaction where
  cmd : Word
  op  : Vector Word 13
deriving DecidableEq, Repr

/-- The operands of TRIGGER_START, `OP[0]` to `OP[12]` at their widths (R84). -/
structure TriggerOps where
  cr          : BitVec 32
  source      : Handle
  timer       : BitVec 16
  repeatPoint : BitVec 32
  length      : BitVec 32
  trackId     : BitVec 8
  priority    : BitVec 8
  attack      : BitVec 8
  decay       : BitVec 16
  sustain     : BitVec 7
  release     : BitVec 16
  key         : BitVec 8
  orgKey      : BitVec 8
deriving DecidableEq, Repr

/-- The operands of NOTE_PARAMS, `OP[0]` to `OP[6]` at their widths (R84); the s-operands are raw two's
complement. -/
structure NoteOps where
  noteLength  : BitVec 32
  velocity    : BitVec 16
  pan         : BitVec 16
  portaEnable : Bool
  portaKey    : BitVec 8
  portaTime   : BitVec 8
  sweepBase   : BitVec 16
deriving DecidableEq, Repr

/-- The operands of TRACK_UPDATE, `OP[0]` to `OP[11]` at their widths (R84); the s-operands are raw two's
complement. -/
structure TrackOps where
  volMaster      : BitVec 16
  volSeq         : BitVec 16
  volTrack       : BitVec 16
  volExpr        : BitVec 16
  pan            : BitVec 16
  pitchBend      : BitVec 8
  pitchBendRange : BitVec 8
  modType        : BitVec 2
  modSpeed       : BitVec 8
  modDepth       : BitVec 8
  modRange       : BitVec 8
  modDelay       : BitVec 16
deriving DecidableEq, Repr

/-- The thirteen commands of R83, in the order of spec/opcode_table.json. An instruction is the command
word together with the operands it names (log 17). -/
inductive Instr where
  | nop
  | initTables
  | setInterp (mode : BitVec 3)
  | setRate (rate : BitVec 32)
  | triggerStart (ch : ChanId) (ops : TriggerOps)
  | noteParams (ch : ChanId) (ops : NoteOps)
  | release (ch : ChanId)
  | kill (ch : ChanId)
  | trackUpdate (ch : ChanId) (flags : BitVec 5) (ops : TrackOps)
  | update (ch : ChanId)
  | generateSample (ch : ChanId)
  | incrementSample (ch : ChanId)
  | read (ch : ChanId) (sel : BitVec 4)
deriving DecidableEq, Repr

end Sys2Proof
end

