-- ==== Sys2Proof/WellFormed.lean ====
section
/-! DEFINITION. Which instructions are well formed: no reserved immediate and no reserved operand
encoding (spec/30_encoding.md R88). The conditions that depend on state or on the parameters are the
commands' own checks (spec/60_exceptions.md R252). -/

namespace Sys2Proof

/-- R88 on the fields of an instruction: SET_INTERP mode 5..7, TRIGGER_START with `CR[28:27] = 3`,
TRACK_UPDATE with TUF_MOD and `OP[7][1:0] = 3`, and READ selector 5..15 are reserved; every other field
value is admitted. -/
def Instr.wellFormed : Instr → Bool
  | .nop => true
  | .initTables => true
  | .setInterp mode => decide (mode.toNat ≤ 4)
  | .setRate _ => true
  | .triggerStart _ ops => ops.cr.extractLsb' 27 2 != 3#2
  | .noteParams _ _ => true
  | .release _ => true
  | .kill _ => true
  | .trackUpdate _ flags ops => !(flags.getLsbD 4 && ops.modType == 3#2)
  | .update _ => true
  | .generateSample _ => true
  | .incrementSample _ => true
  | .read _ sel => decide (sel.toNat ≤ 4)

end Sys2Proof
end

