-- ==== Sys2Proof/Decode.lean ====
section
/-! DEFINITION. Decoding a transaction, total and rejecting by name, and the encoder written from the
same encoding tables (spec/30_encoding.md R81 to R84, R88, R89). -/

namespace Sys2Proof

/-- Why a command word is no command (R88, refusal F1 of R252). -/
inductive DecodeError where
  /-- The opcode `CMD[31:24]` is none of R83. -/
  | reservedOpcode
  /-- `CMD[23:20]` is not zero. -/
  | reservedBits
  /-- A global command (format G or GI) with a non-zero channel field. -/
  | channelInGlobal
  /-- A non-zero immediate bit outside the command's used field. -/
  | reservedImmediate
deriving DecidableEq, Repr

/-- One row of spec/opcode_table.json: "A command word `w` is command X iff `w & mask(X) = match(X)`" (R82). -/
structure OpcodeRow where
  mnemonic : String
  pattern  : Word
  mask     : Word
deriving DecidableEq, Repr

/-- The thirteen rows (R82, R83). -/
def opcodeTable : List OpcodeRow :=
  [⟨"NOP", 0x00000000, 0xFFFFFFFF⟩, ⟨"INIT_TABLES", 0x01000000, 0xFFFFFFFF⟩,
   ⟨"SET_INTERP", 0x02000000, 0xFFFFFFF8⟩, ⟨"SET_RATE", 0x03000000, 0xFFFFFFFF⟩,
   ⟨"TRIGGER_START", 0x10000000, 0xFFF0FFFF⟩, ⟨"NOTE_PARAMS", 0x11000000, 0xFFF0FFFF⟩,
   ⟨"RELEASE", 0x12000000, 0xFFF0FFFF⟩] ++
  [⟨"KILL", 0x13000000, 0xFFF0FFFF⟩, ⟨"TRACK_UPDATE", 0x20000000, 0xFFF0FFE0⟩,
   ⟨"UPDATE", 0x21000000, 0xFFF0FFFF⟩, ⟨"GENERATE_SAMPLE", 0x30000000, 0xFFF0FFFF⟩,
   ⟨"INCREMENT_SAMPLE", 0x31000000, 0xFFF0FFFF⟩, ⟨"READ", 0x40000000, 0xFFF0FFF0⟩]

/-- `w` is the command of a row (R82). -/
def OpcodeRow.matches (r : OpcodeRow) (w : Word) : Bool := (w &&& r.mask) == r.pattern

/-- `opcode = CMD[31:24]` (R81). -/
def cmdOpcode (w : Word) : BitVec 8 := w.extractLsb' 24 8

/-- `ch = CMD[19:16]` (R81, R82). -/
def cmdChannel (w : Word) : ChanId := w.extractLsb' 16 4

/-- The opcodes of the global commands and of the channel commands (R83). -/
def globalOpcodes : List (BitVec 8) := [0x00, 0x01, 0x02, 0x03]
def channelOpcodes : List (BitVec 8) := [0x10, 0x11, 0x12, 0x13, 0x20, 0x21, 0x30, 0x31, 0x40]

/-- Which clause of R88 a word that is no command falls under. -/
def rejectReason (w : Word) : DecodeError :=
  if cmdOpcode w ∉ globalOpcodes ∧ cmdOpcode w ∉ channelOpcodes then .reservedOpcode
  else if w.extractLsb' 20 4 ≠ 0#4 then .reservedBits
  else if cmdOpcode w ∈ globalOpcodes ∧ cmdChannel w ≠ 0#4 then .channelInGlobal
  else .reservedImmediate

/-- The operand block of TRIGGER_START: each field from the low bits of its word, upper bits ignored (R84). -/
def triggerOpsOf (op : Vector Word 13) : TriggerOps where
  cr          := op[0]
  source      := op[1]
  timer       := op[2].setWidth 16
  repeatPoint := op[3]
  length      := op[4]
  trackId     := op[5].setWidth 8
  priority    := op[6].setWidth 8
  attack      := op[7].setWidth 8
  decay       := op[8].setWidth 16
  sustain     := op[9].setWidth 7
  release     := op[10].setWidth 16
  key         := op[11].setWidth 8
  orgKey      := op[12].setWidth 8

/-- The operand block of NOTE_PARAMS (R84). -/
def noteOpsOf (op : Vector Word 13) : NoteOps where
  noteLength  := op[0]
  velocity    := op[1].setWidth 16
  pan         := op[2].setWidth 16
  portaEnable := op[3].getLsbD 0
  portaKey    := op[4].setWidth 8
  portaTime   := op[5].setWidth 8
  sweepBase   := op[6].setWidth 16

/-- The operand block of TRACK_UPDATE (R84). -/
def trackOpsOf (op : Vector Word 13) : TrackOps where
  volMaster      := op[0].setWidth 16
  volSeq         := op[1].setWidth 16
  volTrack       := op[2].setWidth 16
  volExpr        := op[3].setWidth 16
  pan            := op[4].setWidth 16
  pitchBend      := op[5].setWidth 8
  pitchBendRange := op[6].setWidth 8
  modType        := op[7].setWidth 2
  modSpeed       := op[8].setWidth 8
  modDepth       := op[9].setWidth 8
  modRange       := op[10].setWidth 8
  modDelay       := op[11].setWidth 16

/-- The decoder (R82, R83, R84, R88): the table's rows in its order, which is immaterial because they are
pairwise disjoint (R89). Reserved values of a used field decode and are refused by the command (log 12). -/
def decode (t : Transaction) : Except DecodeError Instr :=
  let w := t.cmd
  let ch := cmdChannel w
  if w &&& 0xFFFFFFFF#32 = 0x00000000#32 then .ok .nop
  else if w &&& 0xFFFFFFFF#32 = 0x01000000#32 then .ok .initTables
  else if w &&& 0xFFFFFFF8#32 = 0x02000000#32 then .ok (.setInterp (w.extractLsb' 0 3))
  else if w &&& 0xFFFFFFFF#32 = 0x03000000#32 then .ok (.setRate t.op[0])
  else if w &&& 0xFFF0FFFF#32 = 0x10000000#32 then .ok (.triggerStart ch (triggerOpsOf t.op))
  else if w &&& 0xFFF0FFFF#32 = 0x11000000#32 then .ok (.noteParams ch (noteOpsOf t.op))
  else if w &&& 0xFFF0FFFF#32 = 0x12000000#32 then .ok (.release ch)
  else if w &&& 0xFFF0FFFF#32 = 0x13000000#32 then .ok (.kill ch)
  else if w &&& 0xFFF0FFE0#32 = 0x20000000#32 then
    .ok (.trackUpdate ch (w.extractLsb' 0 5) (trackOpsOf t.op))
  else if w &&& 0xFFF0FFFF#32 = 0x21000000#32 then .ok (.update ch)
  else if w &&& 0xFFF0FFFF#32 = 0x30000000#32 then .ok (.generateSample ch)
  else if w &&& 0xFFF0FFFF#32 = 0x31000000#32 then .ok (.incrementSample ch)
  else if w &&& 0xFFF0FFF0#32 = 0x40000000#32 then .ok (.read ch (w.extractLsb' 0 4))
  else .error (rejectReason w)

/-- The command word of R81: opcode, four zero bits, channel, sixteen immediate bits. -/
def cmdWord (opcode : BitVec 8) (ch : ChanId) (imm : BitVec 16) : Word :=
  opcode ++ 0#4 ++ ch ++ imm

/-- The operand block of a command that takes no operands. -/
def noOperands : Vector Word 13 := Vector.replicate 13 0#32

/-- The encoder: the transaction that stands for an instruction (R81 to R84); operand words and upper
operand bits the command does not use are written 0. -/
def encode : Instr → Transaction
  | .nop => ⟨cmdWord 0x00 0 0, noOperands⟩
  | .initTables => ⟨cmdWord 0x01 0 0, noOperands⟩
  | .setInterp mode => ⟨cmdWord 0x02 0 (mode.setWidth 16), noOperands⟩
  | .setRate rate => ⟨cmdWord 0x03 0 0, noOperands.set 0 rate⟩
  | .triggerStart ch o => ⟨cmdWord 0x10 ch 0,
      #v[o.cr, o.source, o.timer.setWidth 32, o.repeatPoint, o.length, o.trackId.setWidth 32,
         o.priority.setWidth 32, o.attack.setWidth 32, o.decay.setWidth 32, o.sustain.setWidth 32,
         o.release.setWidth 32, o.key.setWidth 32, o.orgKey.setWidth 32]⟩
  | .noteParams ch o => ⟨cmdWord 0x11 ch 0,
      #v[o.noteLength, o.velocity.setWidth 32, o.pan.setWidth 32, (BitVec.ofBool o.portaEnable).setWidth 32,
         o.portaKey.setWidth 32, o.portaTime.setWidth 32, o.sweepBase.setWidth 32, 0, 0, 0, 0, 0, 0]⟩
  | .release ch => ⟨cmdWord 0x12 ch 0, noOperands⟩
  | .kill ch => ⟨cmdWord 0x13 ch 0, noOperands⟩
  | .trackUpdate ch flags o => ⟨cmdWord 0x20 ch (flags.setWidth 16),
      #v[o.volMaster.setWidth 32, o.volSeq.setWidth 32, o.volTrack.setWidth 32, o.volExpr.setWidth 32,
         o.pan.setWidth 32, o.pitchBend.setWidth 32, o.pitchBendRange.setWidth 32, o.modType.setWidth 32,
         o.modSpeed.setWidth 32, o.modDepth.setWidth 32, o.modRange.setWidth 32, o.modDelay.setWidth 32, 0]⟩
  | .update ch => ⟨cmdWord 0x21 ch 0, noOperands⟩
  | .generateSample ch => ⟨cmdWord 0x30 ch 0, noOperands⟩
  | .incrementSample ch => ⟨cmdWord 0x31 ch 0, noOperands⟩
  | .read ch sel => ⟨cmdWord 0x40 ch (sel.setWidth 16), noOperands⟩

/-- The transaction whose bits are `w`, numbered as spec/opcode_table.json numbers them: bits 31..0 are
`CMD`, bits 63..32 are `OP[0]`, and so on; every bit from `nbits` up is 0. -/
def tableTransaction (nbits w : Nat) : Transaction :=
  let v := w % 2 ^ nbits
  ⟨BitVec.ofNat 32 v, Vector.ofFn fun i : Fin 13 => BitVec.ofNat 32 (v / 2 ^ (32 * (i.val + 1)))⟩

/-- The instruction the decoder reads from an opcode-table word, none where it rejects it. -/
def decodeTableWord (nbits w : Nat) : Option Instr :=
  match decode (tableTransaction nbits w) with
  | .ok i => some i
  | .error _ => none

end Sys2Proof
end

