-- ==== Sys2Proof/Machine/Literals.lean ====
section
/-! DEFINITION. The literals spec/00_scope.md R7 fixes, "each as a named constant", in the order of its table, and the
two other numbers several rules share (R17, R171). A range that is a register's width is a named type, so that the
width is held once. The statements and Safety.lean's restatements of rules spell the numbers out instead: a wrong
constant here makes them false. -/

namespace Sys2Proof.Machine

/-- N_CH: channels, ids 0..15 (R7). -/
abbrev nCh : Nat := 16
/-- DUTY_IDS 8..13: "wave-duty capable" (R7). -/
def dutyIdFirst : Nat := 8
def dutyIdLast : Nat := 13
/-- NOISE_IDS 14..15: "PSG/noise-capable" (R7). -/
def noiseIdFirst : Nat := 14
def noiseIdLast : Nat := 15
/-- VOLMUL range 0..127 (R7). -/
abbrev VolMul := BitVec 7
/-- VOLDIV range 0..3 (R7). -/
abbrev VolDiv := BitVec 2
/-- The shift of the divider codes 0, 1, 2 and 3: "shifts 0/1/2/4"; "3 means shift-by-4" (R7). -/
def volDivShift0 : Nat := 0
def volDivShift1 : Nat := 1
def volDivShift2 : Nat := 2
def volDivShift3 : Nat := 4
/-- PAN range 0..127 (R7). -/
abbrev Pan := BitVec 7
def panMin : Int := 0
def panMax : Int := 127
/-- DUTY range 0..7, and "8 steps per duty row" (R7). -/
abbrev DutyIndex := BitVec 3
def dutyRows : Nat := 8
def dutySteps : Nat := 8
/-- ATTACK range 0..255, the attack coefficient, "scaled by 256" (R7). -/
abbrev AttackCoef := BitVec 8
def attackScale : Int := 256
/-- SUSTAIN width: 7 bits, 0..127 (R7). -/
abbrev SustainParam := BitVec 7
/-- AMPL_BITS: "kept as the document's statement, but no rule depends on a width" (R7, R8). -/
def amplBits : Nat := 14
/-- AMPL_FRAC: the volume sum takes `ampl >> 7` (R7). -/
def amplFrac : Nat := 7
/-- OCT: pitch units per octave (R7). -/
def octave : Int := 768
/-- PITCH_TABLE_LEN: "a 997-entry table"; only indices 0..767 are reachable (R7). -/
def pitchTableLen : Nat := 997
/-- TIMER_MIN and TIMER_MAX: the clamp of an adjusted timer (R7). -/
def timerMin : Nat := 0x10
def timerMax : Nat := 0xFFFF
/-- MOD_STEP_SHIFT: phase advance is `speed << 6` per tick (R7). -/
def modStepShift : Nat := 6
/-- MOD_PERIOD: "wrapping at a 15-bit period" (R7). -/
abbrev ModPhase := BitVec 15
def modPeriod : Nat := 0x8000
/-- MOD_VOL_SCALE: the volume-target scale 60/16384 of the 7.14 product, as factor and right shift (R7). -/
def modVolFactor : Int := 60
def modVolShift : Nat := 14
/-- MOD_PP_SHIFT: the pitch and pan-target right shift of the 7.14 product (R7). -/
def modPpShift : Nat := 8
/-- LFSR_BITS: the noise shift register's width, 15 (R7). -/
abbrev NoiseReg := BitVec 15
/-- LFSR_TAP: the XOR constant of the noise register (R7). -/
def lfsrTap : NoiseReg := 0x6000
/-- NOISE_LO and NOISE_HI (R7). -/
def noiseLo : Int := -32767
def noiseHi : Int := 32767
/-- L4 offsets −1..2: the ends of the 4-point support (R7). -/
def l4First : Int := -1
def l4Last : Int := 2
/-- L6 offsets −2..3: the ends of the 6-point support (R7). -/
def l6First : Int := -2
def l6Last : Int := 3
/-- PRIO_RELEASED: the priority Release writes (R7). -/
def prioReleased : BitVec 8 := 1
/-- NO_TRACK: the track id of an unowned channel, as READ returns it (R7, R86); State holds it as `none` (log 10). -/
def noTrack : Int := -1
/-- LEN_INFINITE: the note length that means "infinite" (R7). -/
def lenInfinite : Int := -1

/-- The mid-point of the pan range 0..127 (R171). -/
def panMid : Int := 64
/-- Pitch units per semitone (R17). -/
def semitone : Int := 64

end Sys2Proof.Machine
end

