-- ==== Sys2Proof/Config.lean ====
section
/-! DEFINITION. What an implementation of the core fixes (spec/00_scope.md R8) and the free values:
constants without a body, which nothing in Lean can evaluate. -/

namespace Sys2Proof

/-- The implementation parameters of R8, in the spec's order; "Each is an argument of the model".
The machine carries one value of this type and no step writes it (log 4). A table is the list of its
entries from index 0, the two sinc tables the list of their entries with the index of each; an entry a
table does not list is left open and reads as a free value (log 5). -/
structure Params where
  clockRate      : Nat
  amplMin        : Int
  volK           : Nat
  volMax         : Nat
  volCut1        : Int
  volCut2        : Int
  volCut3        : Int
  volTable       : List Machine.VolMul
  sustainTable   : List Int
  pitchTable     : List (BitVec 16)
  sineQ          : List (BitVec 7)
  dutyTable      : List (List Sample)
  prerollPcm     : Rat
  prerollPsg     : Rat
  lfsrSeed       : Machine.NoiseReg
  sincWidth      : Nat
  sincResolution : Nat
  sincLut        : List (Nat × Rat)
  windowLut      : List (Nat × Rat)
  nTracks        : Nat
deriving DecidableEq, Repr

/-- HALF = max(3, SINC_WIDTH), the ring half-width (R8); not free (I7). -/
def Params.half (p : Params) : Nat := max 3 p.sincWidth

/-- SINC_SAMPLES = SINC_WIDTH · SINC_RESOLUTION (R8). -/
def Params.sincSamples (p : Params) : Nat := p.sincWidth * p.sincResolution

/-- The constraints R8 states for the parameters, with R226's "Required properties: `SINC_LUT[0] = 1`,
`WINDOW_LUT[0] = 1`"; that the last window entry is "0 or small" names no number and constrains none (log 5). Ranges that a field's type already says (7-bit and
16-bit table entries, the 15-bit seed) are not repeated. -/
structure Params.Valid (p : Params) : Prop where
  clockRate_pos : 0 < p.clockRate
  amplMin_neg   : p.amplMin < 0
  cut3_le_cut2  : p.volCut3 ≤ p.volCut2
  cut2_le_cut1  : p.volCut2 ≤ p.volCut1
  vol_len       : p.volTable.length ≤ p.volMax + 1
  sustain_len   : p.sustainTable.length ≤ 128
  sustain_le    : ∀ x ∈ p.sustainTable, x ≤ 0
  pitch_len     : p.pitchTable.length ≤ Machine.pitchTableLen
  sine_len      : p.sineQ.length ≤ 33
  sine_zero     : p.sineQ[0]? = some 0
  duty_len      : p.dutyTable.length ≤ Machine.dutyRows
  duty_row_len  : ∀ row ∈ p.dutyTable, row.length ≤ Machine.dutySteps
  preroll_pcm   : p.prerollPcm < 0
  preroll_psg   : p.prerollPsg < 0
  width_pos     : 1 ≤ p.sincWidth
  res_pos       : 1 ≤ p.sincResolution
  sinc_index    : ∀ e ∈ p.sincLut, e.1 ≤ p.sincSamples
  window_index  : ∀ e ∈ p.windowLut, e.1 ≤ p.sincSamples
  sinc_zero     : p.sincLut.lookup 0 = some 1
  window_zero   : p.windowLut.lookup 0 = some 1
  tracks_pos    : 1 ≤ p.nTracks
  tracks_le     : p.nTracks ≤ 128

/-- Free value: a VOL_TABLE entry the parameters do not list, 0..127 (D23, I4; log 5). -/
opaque Config.openVolEntry : Nat → Machine.VolMul

/-- Free value: how far below 0 a SUSTAIN_TABLE entry lies that the parameters do not list (D24, I4; log 5). -/
opaque Config.openSustainDepth : Nat → Nat

/-- Free value: a PITCH_TABLE entry the parameters do not list, 0..65535 (D25, I4, I10; log 5). -/
opaque Config.openPitchEntry : Nat → BitVec 16

/-- Free value: a SINE_Q entry the parameters do not list, 0..127 (D26, I4; log 5). -/
opaque Config.openSineEntry : Nat → BitVec 7

/-- Free value: a DUTY_TABLE step (row, step) the parameters do not list (D27, I4; log 5). -/
opaque Config.openDutyStep : Nat → Nat → Sample

/-- Free value: a SINC_LUT entry the parameters do not list (D30, I4; log 5). -/
opaque Config.openSincEntry : Nat → Rat

/-- Free value: a WINDOW_LUT entry the parameters do not list (D30, I4; log 5). -/
opaque Config.openWindowEntry : Nat → Rat

/-- Free value: `SampleRead` of an element no buffer holds (R68, I2; log 6). -/
opaque Config.unmappedSample : Handle → Nat → Sample

/-- Free value: a ring window entry at an offset the stored window does not have; no run reaches it (log 11). -/
opaque Config.missingWindowEntry : Int → Sample

/-- Free value: RES of a kernel whose weight sum is 0 or whose result does not fit 32 bits (I5, I6; log 7),
applied to what the kernel is a function of: the parameters, the window, the fraction, the increment. -/
opaque Config.unspecifiedKernelResult : Params → List Sample → Rat → Rat → Word

end Sys2Proof
end

