-- ==== Sys2Proof/Machine/State.lean ====
section
/-! DEFINITION. The state of the core as plain data (spec/10_state.md), its reset value (R40), and the reasons a
step can stop (spec/60_exceptions.md R252). -/

namespace Sys2Proof.Machine

/-- The envelope state machine of R21, in the order of its encoding 0..5. -/
inductive EnvState where
  | none | start | attack | decay | sustain | release
deriving DecidableEq, Repr

/-- Repeat modes of R87; `reserved` is the control-word value 3, which TRIGGER_START refuses (R88; log 10). -/
inductive RepeatMode where
  | manual | loop | oneShot | reserved
deriving DecidableEq, Repr

/-- Sample formats of R87. -/
inductive SampleFormat where
  | pcm8 | pcm16 | adpcm | psg
deriving DecidableEq, Repr

/-- Modulation targets of R29, R87. -/
inductive ModType where
  | pitch | volume | pan
deriving DecidableEq, Repr

/-- Interpolation kernels of R36, R87. -/
inductive InterpMode where
  | none | linear | lagrange4 | lagrange6 | sinc
deriving DecidableEq, Repr

/-- The pending register snapshot `c.pend` (R23). -/
structure Pending where
  cr          : BitVec 32
  source      : Handle
  timer       : BitVec 16
  repeatPoint : BitVec 32
  length      : BitVec 32
deriving DecidableEq, Repr

/-- The live SoundRegister `c.reg` (R24). -/
structure SoundRegister where
  volumeMul      : VolMul
  volumeDiv      : VolDiv
  panning        : Pan
  waveDuty       : DutyIndex
  repeatMode     : RepeatMode
  format         : SampleFormat
  enable         : Bool
  source         : Handle
  timer          : BitVec 16
  psgX           : NoiseReg
  psgLast        : Int
  psgLastCount   : Nat
  samplePosition : Rat
  sampleIncrease : Rat
  loopStart      : Nat
  length         : Nat
  totalLength    : Nat
deriving DecidableEq, Repr

/-- The envelope registers (R26). -/
structure Envelope where
  ampl        : Int
  attackLvl   : AttackCoef
  decayRate   : BitVec 16
  sustainLvl  : SustainParam
  releaseRate : BitVec 16
deriving DecidableEq, Repr

/-- The sweep (portamento) registers (R28). -/
structure Sweep where
  sweepLen    : Int
  sweepCnt    : Nat
  sweepPitch  : Int
  manualSweep : Bool
deriving DecidableEq, Repr

/-- The modulation registers (R29). -/
structure Modulation where
  modType     : ModType
  modSpeed    : BitVec 8
  modDepth    : BitVec 8
  modRange    : BitVec 8
  modDelay    : BitVec 16
  modDelayCnt : Nat
  modCounter  : ModPhase
deriving DecidableEq, Repr

/-- The bias and note registers (R30). -/
structure NoteRegs where
  extTune   : Int
  extPan    : Int
  extAmpl   : Int
  velocity  : Int
  pan       : Int
  key       : BitVec 8
  orgKey    : BitVec 8
  baseTimer : BitVec 16
deriving DecidableEq, Repr

/-- The recompute flags, the core's only flag register (R31): CF_UPDVOL, CF_UPDPAN, CF_UPDTMR. -/
structure RecomputeFlags where
  updVol : Bool
  updPan : Bool
  updTmr : Bool
deriving DecidableEq, Repr

/-- The ring buffer as a sliding window (R34, D31): the list holds `win[−HALF]` first and `win[HALF]` last. -/
structure Ring where
  win       : List Sample
  fillPos   : Nat
  ringValid : Bool
deriving DecidableEq, Repr

/-- One channel (R21 to R34). `trackId` is `none` for the spec's −1 (log 10); the channel's id is its index in
the pool (R20). -/
structure Channel where
  state      : EnvState
  trackId    : Option (BitVec 8)
  prio       : BitVec 8
  pend       : Pending
  reg        : SoundRegister
  env        : Envelope
  noteLength : Int
  sweep      : Sweep
  mod        : Modulation
  note       : NoteRegs
  flags      : RecomputeFlags
  vol        : Nat
  ring       : Ring
deriving DecidableEq, Repr

/-- The three global control registers (R36); `sampleRate = 0` is "not yet set". -/
structure GlobalRegs where
  interp      : InterpMode
  sampleRate  : BitVec 32
  tablesReady : Bool
deriving DecidableEq, Repr

/-- A sample buffer: its handle and its elements from index 0 (R61). -/
structure Buffer where
  handle  : Handle
  samples : List Sample
deriving DecidableEq, Repr

/-- Sample memory: the buffers the host has placed, by strictly rising handle (R60, R61; log 6). -/
abbrev SampleMemory := List Buffer

/-- The whole state. `cfg`, `channels` and `res` are the core's registers and its result word; `params`, `mem`
and `commands` are the parameters, the sample memory and the host's command stream, carried here as plain data
(log 1, log 4, log 6). -/
structure State where
  params   : Params
  mem      : SampleMemory
  commands : List Transaction
  cfg      : GlobalRegs
  channels : Vector Channel nCh
  res      : Word
deriving DecidableEq, Repr

/-- The faults: loops of the spec's pseudocode that would not end. No state a run from reset can reach raises
one; the core itself raises no fault (R250). -/
inductive Fault where
  /-- UPDATE raises it in AttackStep when no pass of the attack loop changes the high bits (R143; log 8). Safe:
  the model stops where the pseudocode would never return. -/
  | attackStepDiverges
  /-- INCREMENT_SAMPLE raises it in EndOfData when the loop length is 0 (R199; log 9). Safe: the model stops
  where the pseudocode would never return. -/
  | loopWrapDiverges
deriving DecidableEq, Repr

/-- The refusals of R252: "A refused command changes no state and returns no result; the model marks the run as
having left the specified behaviour". All are safe: they err toward unprovable (R13, D5). -/
inductive Refusal where
  /-- An instruction the model has no meaning for; exec's arms raise it. Safe. No arm does. -/
  | notModelled (mnemonic : String)
  /-- F1: a command word that is no command; `step` raises it. -/
  | reservedEncoding (why : DecodeError)
  /-- F2: SET_INTERP mode 5..7. -/
  | reservedInterpMode
  /-- F3: SET_RATE with rate 0. -/
  | zeroSampleRate
  /-- F4: READ selector 5..15. -/
  | reservedSelector
  /-- F5: a gated command while `CFG.tablesReady` is false. -/
  | tablesNotReady
  /-- F6: TRIGGER_START with repeat mode 3. -/
  | reservedRepeatMode
  /-- F7: TRIGGER_START with a track id of N_TRACKS or more. -/
  | trackIdOutOfRange
  /-- F8: TRIGGER_START of a PCM format with the null handle. -/
  | nullSource
  /-- F8: TRIGGER_START of a PCM format with total length 0. -/
  | zeroLengthSample
  /-- F8: TRIGGER_START of a PCM format in loop mode with loop length 0. -/
  | zeroLengthLoop
  /-- F9: NOTE_PARAMS on a channel in state None. -/
  | noNote
  /-- F10: NOTE_PARAMS with note length 0 or below −1. -/
  | reservedNoteLength
  /-- F11: RELEASE on a channel in state None or Start. -/
  | notSounding
  /-- F12: TRACK_UPDATE with TUF_MOD and modulation type 3. -/
  | reservedModType
  /-- F13: UPDATE of a non-idle channel while `CFG.sampleRate` is 0. -/
  | sampleRateNotSet
deriving DecidableEq, Repr

/-- The cleared SoundRegister: "every field takes the value in the reset column of rule R40" (R24). -/
def SoundRegister.cleared : SoundRegister where
  volumeMul      := 0
  volumeDiv      := 0
  panning        := 0
  waveDuty       := 0
  repeatMode     := .manual
  format         := .pcm8
  enable         := false
  source         := 0
  timer          := 0
  psgX           := 0
  psgLast        := 0
  psgLastCount   := 0
  samplePosition := 0
  sampleIncrease := 0
  loopStart      := 0
  length         := 0
  totalLength    := 0

/-- The empty ring of the half-width the parameters give: all entries 0, nothing filled (R40, R195). -/
def Ring.cleared (p : Params) : Ring where
  win       := List.replicate (2 * p.half + 1) 0
  fillPos   := 0
  ringValid := false

/-- One channel at reset (R40). -/
def Channel.reset (p : Params) : Channel where
  state      := .none
  trackId    := Option.none
  prio       := 0
  pend       := ⟨0, 0, 0, 0, 0⟩
  reg        := SoundRegister.cleared
  env        := ⟨0, 0, 0, 0, 0⟩
  noteLength := lenInfinite
  sweep      := ⟨0, 0, 0, false⟩
  mod        := ⟨.pitch, 0, 0, 0, 0, 0, 0⟩
  note       := ⟨0, 0, 0, 0, 0, 0, 0, 0⟩
  flags      := ⟨false, false, false⟩
  vol        := 0
  ring       := Ring.cleared p

/-- The reset state of an implementation with parameters `p` (R40, R270): every channel idle, the configuration
unset, no command issued, no buffer placed. -/
def State.resetWith (p : Params) : State where
  params   := p
  mem      := []
  commands := []
  cfg      := ⟨.none, 0, false⟩
  channels := Vector.replicate nCh (Channel.reset p)
  res      := 0

/-- The machine right after reset (R40, R270), with the reference parameters of R8 (log 4). -/
def State.reset : State := State.resetWith referenceParams

end Sys2Proof.Machine
end

