-- ==== Sys2Proof/Machine/Arith.lean ====
section
/-! DEFINITION. The arithmetic of spec/00_scope.md R9 and R10. -/

namespace Sys2Proof.Machine

/-- `a >> n` "on any integer, negative included, is the arithmetic shift floor(a / 2^n)" (R9). -/
def asr (a : Int) (n : Nat) : Int := a / (2 : Int) ^ n

/-- `clamp(v, lo, hi)` (R9). -/
def clampInt (v lo hi : Int) : Int := if v < lo then lo else if v > hi then hi else v

/-- `clamp(v, lo, hi)` on non-negative integers (R9). -/
def clampNat (v lo hi : Nat) : Nat := if v < lo then lo else if v > hi then hi else v

/-- `tdiv(a, b)`: division truncated toward zero (R9). -/
def tdiv (a b : Int) : Int := a.tdiv b

/-- `trunc(q)` drops the fraction toward zero (R10). -/
def ratTrunc (q : Rat) : Int := q.num.tdiv q.den

/-- `floor(q)` (R10). -/
def ratFloor (q : Rat) : Int := q.floor

/-- `frac(q) = q − floor(q)` (R10). -/
def ratFrac (q : Rat) : Rat := q - (ratFloor q : Rat)

/-- The 32-bit two's-complement word of an integer (R86). -/
def wordOfInt (n : Int) : Word := BitVec.ofInt 32 n

end Sys2Proof.Machine
end

