-- ==== Sys2Proof/Machine/Tables.lean ====
section
/-! DEFINITION. Reading the hardware tables (spec/10_state.md R35, spec/00_scope.md R8): the entry the parameters
list, or the free value where they leave it open (log 5). -/

namespace Sys2Proof.Machine

/-- `VOL_TABLE[i]`, 0..127. -/
def volEntry (p : Params) (i : Nat) : VolMul := p.volTable[i]?.getD (Config.openVolEntry i)

/-- `SUSTAIN_TABLE[i]`, an amplitude ≤ 0; an open entry is a free value of that range. -/
def sustainEntry (p : Params) (i : Nat) : Int := p.sustainTable[i]?.getD (-(Config.openSustainDepth i : Int))

/-- `PITCH_TABLE[i]`, 0..65535; only 0..767 is ever read (R166). -/
def pitchEntry (p : Params) (i : Nat) : BitVec 16 := p.pitchTable[i]?.getD (Config.openPitchEntry i)

/-- `SINE_Q[i]`, 0..127. -/
def sineEntry (p : Params) (i : Nat) : BitVec 7 := p.sineQ[i]?.getD (Config.openSineEntry i)

/-- `DUTY_TABLE[d][k]`. -/
def dutyEntry (p : Params) (d k : Nat) : Sample :=
  ((p.dutyTable[d]?.getD [])[k]?).getD (Config.openDutyStep d k)

/-- `SINC_LUT[i]`. -/
def sincEntry (p : Params) (i : Nat) : Rat := (p.sincLut.lookup i).getD (Config.openSincEntry i)

/-- `WINDOW_LUT[i]`. -/
def windowEntry (p : Params) (i : Nat) : Rat := (p.windowLut.lookup i).getD (Config.openWindowEntry i)

/-- SINE over one period of 128 steps, from the quarter wave by symmetry (R163). -/
def sine (p : Params) (i : Nat) : Int :=
  if i < 32 then ((sineEntry p i).toNat : Int)
  else if i < 64 then ((sineEntry p (64 - i)).toNat : Int)
  else if i < 96 then -((sineEntry p (i - 64)).toNat : Int)
  else -((sineEntry p (128 - i)).toNat : Int)

end Sys2Proof.Machine
end

