-- ==== Sys2Proof/Machine/Kernel.lean ====
section
/-! DEFINITION. The interpolation kernels over exact rationals (spec/45_interpolation.md). -/

namespace Sys2Proof.Machine

/-- `win[k]`, k in −HALF..HALF (R34). An offset the stored window does not have reads as a free value; no kernel
reads one while the window has its 2·HALF + 1 entries (R198; log 11). -/
def winAt (p : Params) (win : List Sample) (k : Int) : Sample :=
  if 0 ≤ k + p.half then win[(k + p.half).toNat]?.getD (Config.missingWindowEntry k)
  else Config.missingWindowEntry k

/-- `win[k]` as a rational. -/
def winRat (p : Params) (win : List Sample) (k : Int) : Rat := ((winAt p win k).toInt : Rat)

/-- Linear (R222). -/
def linearKernel (p : Params) (win : List Sample) (f : Rat) : Rat :=
  winRat p win 0 + f * (winRat p win 1 - winRat p win 0)

/-- Lagrange4 in the closed form of R223. -/
def lagrange4Kernel (p : Params) (win : List Sample) (f : Rat) : Rat :=
  let ym := winRat p win l4First
  let y0 := winRat p win 0
  let y1 := winRat p win 1
  let y2 := winRat p win l4Last
  let c0 := y0
  let c1 := y1 - ym / 3 - y0 / 2 - y2 / 6
  let c2 := (ym + y1) / 2 - y0
  let c3 := (y2 - ym) / 6 + (y0 - y1) / 2
  ((c3 * f + c2) * f + c1) * f + c0

/-- Lagrange6 in the closed form of R224, in the shifted variable `z = f − 1/2`. -/
def lagrange6Kernel (p : Params) (win : List Sample) (f : Rat) : Rat :=
  let z := f - 1 / 2
  let even1 := winRat p win l6First + winRat p win l6Last
  let odd1 := winRat p win l6First - winRat p win l6Last
  let even2 := winRat p win (-1) + winRat p win 2
  let odd2 := winRat p win (-1) - winRat p win 2
  let even3 := winRat p win 0 + winRat p win 1
  let odd3 := winRat p win 0 - winRat p win 1
  let c0 := 3 / 256 * even1 - 25 / 256 * even2 + 75 / 128 * even3
  let c1 := 25 / 384 * odd2 - 75 / 64 * odd3 - 3 / 640 * odd1
  let c2 := 13 / 32 * even2 - 17 / 48 * even3 - 5 / 96 * even1
  let c3 := 1 / 48 * odd1 - 13 / 48 * odd2 + 17 / 24 * odd3
  let c4 := 1 / 48 * even1 - 1 / 16 * even2 + 1 / 24 * even3
  let c5 := 1 / 24 * odd2 - 1 / 12 * odd3 - 1 / 120 * odd1
  ((((c5 * z + c4) * z + c3) * z + c2) * z + c1) * z + c0

/-- The taps W down to −(W − 1), 2·W of them (R225). -/
def sincTaps (p : Params) : List Int :=
  (List.range (2 * p.sincWidth)).map fun j => (p.sincWidth : Int) - (j : Int)

/-- The reduced table step of R225: `trunc(RES / inc)` when down-sampling, else RES. -/
def sincStep (p : Params) (inc : Rat) : Int :=
  if inc > 1 then ratTrunc ((p.sincResolution : Rat) / inc) else p.sincResolution

/-- The fraction in table steps, `floor(f * RES)` (R225). -/
def sincShift (p : Params) (f : Rat) : Int := ratFloor (f * (p.sincResolution : Rat))

/-- The weight of tap `i` (R225): the sinc at the reduced distance times the window at the full distance. -/
def sincWeight (p : Params) (f inc : Rat) (i : Int) : Rat :=
  let shift := sincShift p f
  let step := sincStep p inc
  let shiftAdj := shift * step / (p.sincResolution : Int)
  let wpos := (shift - i * (p.sincResolution : Int)).natAbs
  let spos := (shiftAdj - i * step).natAbs
  sincEntry p spos * windowEntry p wpos

/-- The sum of the weights used (R225). -/
def sincWeightSum (p : Params) (f inc : Rat) : Rat := ((sincTaps p).map (sincWeight p f inc)).sum

/-- Sinc (R225): the weighted sum over the weight sum; none where the weight sum is 0 (I5). -/
def sincKernel (p : Params) (win : List Sample) (f inc : Rat) : Option Rat :=
  let ksum := sincWeightSum p f inc
  if ksum = 0 then none
  else some (((sincTaps p).map fun i => winRat p win i * sincWeight p f inc i).sum / ksum)

/-- The exact value of a kernel before its conversion (R220); NONE is the sample at "now" (R221). -/
def kernelValue (p : Params) (mode : InterpMode) (win : List Sample) (f inc : Rat) : Option Rat :=
  match mode with
  | .none => some (winRat p win 0)
  | .linear => some (linearKernel p win f)
  | .lagrange4 => some (lagrange4Kernel p win f)
  | .lagrange6 => some (lagrange6Kernel p win f)
  | .sinc => sincKernel p win f inc

/-- Kernel (R220): the value truncated toward zero, as a 32-bit word. A zero weight sum (I5) and a result beyond 32
bits (I6) leave RES any value: a free value (log 7). -/
def kernelWord (p : Params) (mode : InterpMode) (win : List Sample) (f inc : Rat) : Word :=
  match kernelValue p mode win f inc with
  | none => Config.unspecifiedKernelResult p win f inc
  | some v =>
    if -2147483648 ≤ ratTrunc v ∧ ratTrunc v ≤ 2147483647 then wordOfInt (ratTrunc v)
    else Config.unspecifiedKernelResult p win f inc

end Sys2Proof.Machine
end

