-- ==== Sys2Proof/Machine/Operands.lean ====
section
/-! DEFINITION. Operand forms: `uN` and `sN` readings of the operand fields (spec/30_encoding.md R84), the control
word (spec/10_state.md R25) and the numbers of the enumerations (R87). -/

namespace Sys2Proof.Machine

/-- `uN`: the field as an unsigned integer (R84). -/
def unsignedOp {n : Nat} (x : BitVec n) : Int := (x.toNat : Int)

/-- `sN`: the field as two's complement (R84). -/
def signedOp {n : Nat} (x : BitVec n) : Int := x.toInt

/-- `CR[6:0]` (R25). -/
def crVolumeMul (cr : BitVec 32) : VolMul := cr.extractLsb' 0 7
/-- `CR[9:8]` (R25). -/
def crVolumeDiv (cr : BitVec 32) : VolDiv := cr.extractLsb' 8 2
/-- `CR[22:16]` (R25). -/
def crPanning (cr : BitVec 32) : Pan := cr.extractLsb' 16 7
/-- `CR[26:24]` (R25). -/
def crWaveDuty (cr : BitVec 32) : DutyIndex := cr.extractLsb' 24 3
/-- `CR[31]` (R25). -/
def crEnable (cr : BitVec 32) : Bool := cr.getLsbD 31

/-- Repeat mode of a two-bit code (R87). -/
def repeatModeOf (b : BitVec 2) : RepeatMode :=
  if b = 0#2 then .manual else if b = 1#2 then .loop else if b = 2#2 then .oneShot else .reserved

/-- `CR[28:27]` (R25). -/
def crRepeatMode (cr : BitVec 32) : RepeatMode := repeatModeOf (cr.extractLsb' 27 2)

/-- Sample format of a two-bit code (R87). -/
def formatOf (b : BitVec 2) : SampleFormat :=
  if b = 0#2 then .pcm8 else if b = 1#2 then .pcm16 else if b = 2#2 then .adpcm else .psg

/-- `CR[30:29]` (R25). -/
def crFormat (cr : BitVec 32) : SampleFormat := formatOf (cr.extractLsb' 29 2)

/-- Modulation type of a two-bit code; 3 is reserved (R87). -/
def modTypeOf (b : BitVec 2) : Option ModType :=
  if b = 0#2 then some .pitch else if b = 1#2 then some .volume else if b = 2#2 then some .pan else none

/-- Interpolation mode of a three-bit code; 5..7 are reserved (R87). -/
def interpModeOf (b : BitVec 3) : Option InterpMode :=
  if b = 0#3 then some .none else if b = 1#3 then some .linear else if b = 2#3 then some .lagrange4
  else if b = 3#3 then some .lagrange6 else if b = 4#3 then some .sinc else none

/-- The number of an envelope state, 0..5 (R87). -/
def EnvState.code : EnvState → Nat
  | .none => 0
  | .start => 1
  | .attack => 2
  | .decay => 3
  | .sustain => 4
  | .release => 5

/-- "past `Start`": Attack, Decay, Sustain or Release (R21). -/
def EnvState.pastStart : EnvState → Bool
  | .none => false
  | .start => false
  | .attack => true
  | .decay => true
  | .sustain => true
  | .release => true

/-- A track id as READ returns it: "−1 reads 0xFFFFFFFF" (R86, R244). -/
def trackIdWord : Option (BitVec 8) → Word
  | none => wordOfInt noTrack
  | some t => t.setWidth 32

end Sys2Proof.Machine
end

