-- ==== Sys2Proof/Machine/Flags.lean ====
section
/-! DEFINITION. The recompute flags (spec/10_state.md R31): setting, clearing, and the flag of a modulation target
(spec/41_track_update.md R135). The core has no arithmetic condition codes (R31). -/

namespace Sys2Proof.Machine

/-- All three flags set (R110, R111). -/
def allFlags : RecomputeFlags := ⟨true, true, true⟩

def RecomputeFlags.setVol (f : RecomputeFlags) : RecomputeFlags := { f with updVol := true }
def RecomputeFlags.setPan (f : RecomputeFlags) : RecomputeFlags := { f with updPan := true }
def RecomputeFlags.setTmr (f : RecomputeFlags) : RecomputeFlags := { f with updTmr := true }
def RecomputeFlags.clearVol (f : RecomputeFlags) : RecomputeFlags := { f with updVol := false }
def RecomputeFlags.clearPan (f : RecomputeFlags) : RecomputeFlags := { f with updPan := false }
def RecomputeFlags.clearTmr (f : RecomputeFlags) : RecomputeFlags := { f with updTmr := false }

/-- `flags.set(TargetFlag(t))`: pitch CF_UPDTMR, volume CF_UPDVOL, pan CF_UPDPAN (R135). -/
def RecomputeFlags.setTarget (f : RecomputeFlags) : ModType → RecomputeFlags
  | .pitch => f.setTmr
  | .volume => f.setVol
  | .pan => f.setPan

/-- tmrNeed of R165. -/
def timerNeeded (f : RecomputeFlags) (sweepActive modActive : Bool) (t : ModType) : Bool :=
  f.updTmr || sweepActive || (modActive && t == .pitch)

/-- volNeed of R165; `entry` is the state before the envelope step. -/
def volumeNeeded (f : RecomputeFlags) (entry : EnvState) (modActive : Bool) (t : ModType) : Bool :=
  f.updVol || entry != .sustain || (modActive && t == .volume)

/-- panNeed of R165. -/
def panNeeded (f : RecomputeFlags) (modActive : Bool) (t : ModType) : Bool :=
  f.updPan || (modActive && t == .pan)

end Sys2Proof.Machine
end

