-- ==== Sys2Proof/Machine/Ops.lean ====
section
/-! DEFINITION. The named operations over channels, sample memory and the command stream, and the shared actions of
spec/00_scope.md R14. The core takes no exception (spec/60_exceptions.md R250); KillAction, the one abnormal
termination (R255), is the shared operation here. -/

namespace Sys2Proof.Machine

/-- Channel `ch` of the pool (R11, R20). -/
def State.chan (s : State) (ch : ChanId) : Channel := s.channels[ch.toNat]'ch.isLt

/-- Write channel `ch`, no other (R20, R282). -/
def State.setChan (s : State) (ch : ChanId) (c : Channel) : State :=
  { s with channels := s.channels.set ch.toNat c ch.isLt }

/-- Write the result word (R86). -/
def State.setRes (s : State) (r : Word) : State := { s with res := r }

/-- Write the global control registers (R36). -/
def State.setCfg (s : State) (g : GlobalRegs) : State := { s with cfg := g }

/-- A channel command that is done: it has written channel `ch` and RES, nothing else (R13, R282). -/
def State.complete (s : State) (ch : ChanId) (c : Channel) (r : Word) : Host.Outcome State Fault Refusal :=
  .next ((s.setChan ch c).setRes r)

/-- The elements of the buffer a handle names, none if the host placed no such buffer (R61). -/
def bufferOf (m : SampleMemory) (src : Handle) : List Sample :=
  match m with
  | [] => []
  | b :: rest => if b.handle = src then b.samples else bufferOf rest src

/-- `SampleRead(src, i)` (R61): the element, or "any value" outside every buffer (R68, I2): a free value (log 6). -/
def sampleRead (m : SampleMemory) (src : Handle) (i : Nat) : Sample :=
  (bufferOf m src)[i]?.getD (Config.unmappedSample src i)

/-- The host places a buffer before a run (R61, R271); the core has no such operation (R65). An earlier buffer of
the same handle is replaced, and an empty buffer is not listed, so the form stays canonical. -/
def placeBuffer (m : SampleMemory) (src : Handle) (xs : List Sample) : SampleMemory :=
  match m with
  | [] => if xs = [] then [] else [⟨src, xs⟩]
  | b :: rest =>
    if b.handle.toNat < src.toNat then b :: placeBuffer rest src xs
    else
      let tail := if b.handle = src then rest else b :: rest
      if xs = [] then tail else ⟨src, xs⟩ :: tail

/-- The canonical form of sample memory: handles strictly rising and no empty buffer (log 6). -/
def Memory.wf : SampleMemory → Bool
  | [] => true
  | [b] => !b.samples.isEmpty
  | b :: b' :: rest => !b.samples.isEmpty && decide (b.handle.toNat < b'.handle.toNat) && Memory.wf (b' :: rest)

/-- KillAction (R114, R255): entered from KILL, from UPDATE (enable false, or release at the minimum) and from
INCREMENT_SAMPLE (a non-looping sample ends). -/
def killAction (p : Params) (c : Channel) : Channel :=
  { c with
    state := .none
    trackId := none
    prio := 0
    reg := SoundRegister.cleared
    vol := 0
    noteLength := lenInfinite
    ring := Ring.cleared p }

/-- ReleaseAction (R113), from RELEASE and from TRACK_UPDATE's length part. -/
def releaseAction (c : Channel) : Channel :=
  { c with noteLength := lenInfinite, prio := prioReleased, state := .release }

/-- Take the next transaction from the host's command stream; none when no command is in progress (R5, R80; log 1). -/
def fetch (s : State) : Option (Transaction × State) :=
  match s.commands with
  | [] => none
  | t :: rest => some (t, { s with commands := rest })

/-- Put a transaction where the next step fetches it. -/
def State.issue (s : State) (t : Transaction) : State := { s with commands := t :: s.commands }

end Sys2Proof.Machine
end

