-- ==== Sys2Proof/Machine/Generate.lean ====
section
/-! DEFINITION. GENERATE_SAMPLE, INCREMENT_SAMPLE, the ring buffer and the end of data
(spec/44_sample_generation.md). -/

namespace Sys2Proof.Machine

/-- PcmSample (R191): one memory read with interpolation NONE, else the kernel over the window. -/
def pcmSample (p : Params) (mode : InterpMode) (m : SampleMemory) (c : Channel) : Word :=
  if mode = .none then (sampleRead m c.reg.source (ratFloor c.reg.samplePosition).toNat).signExtend 32
  else kernelWord p mode c.ring.win (ratFrac c.reg.samplePosition) c.reg.sampleIncrease

/-- DutySample (R192): the position modulo the row's steps is the step. -/
def dutySample (p : Params) (c : Channel) : Word :=
  (dutyEntry p c.reg.waveDuty.toNat ((ratFloor c.reg.samplePosition).toNat % dutySteps)).signExtend 32

/-- The noise register and its last output. -/
structure Noise where
  psgX    : NoiseReg
  psgLast : Int
deriving DecidableEq, Repr

/-- One step of the Galois LFSR (R193). -/
def noiseStep (x : NoiseReg) : Noise :=
  if x.getLsbD 0 then ⟨(x >>> 1) ^^^ lfsrTap, noiseLo⟩ else ⟨x >>> 1, noiseHi⟩

/-- `n` steps of the noise register (R193). -/
def noiseRun : Nat → Noise → Noise
  | 0, r => r
  | n + 1, r => noiseRun n (noiseStep r.psgX)

/-- The state change of NoiseSample (R193): the register catches up with the integer position; at the same integer
position nothing changes. -/
def noiseAdvance (g : SoundRegister) : SoundRegister :=
  let pos := (ratFloor g.samplePosition).toNat
  if g.psgLastCount = pos then g
  else
    let r := noiseRun (pos - g.psgLastCount) ⟨g.psgX, g.psgLast⟩
    { g with psgX := r.psgX, psgLast := r.psgLast, psgLastCount := pos }

/-- Channel ids 8..13 are wave-duty capable (R7, R20). -/
def isDutyId (ch : ChanId) : Bool := decide (dutyIdFirst ≤ ch.toNat ∧ ch.toNat ≤ dutyIdLast)

/-- Channel ids 14..15 are noise capable (R7, R20). -/
def isNoiseId (ch : ChanId) : Bool := decide (noiseIdFirst ≤ ch.toNat ∧ ch.toNat ≤ noiseIdLast)

/-- What a GENERATE_SAMPLE leaves of the channel, and RES. -/
structure Generated where
  chan : Channel
  res  : Word
deriving DecidableEq, Repr

/-- GENERATE_SAMPLE on a channel (R190): silence in None, Start and pre-roll; "the only path that changes state" is
the noise path. -/
def generateChannel (p : Params) (mode : InterpMode) (m : SampleMemory) (ch : ChanId) (c : Channel) : Generated :=
  if c.state = .none ∨ c.state = .start then ⟨c, 0⟩
  else if c.reg.samplePosition < 0 then ⟨c, 0⟩
  else if c.reg.format ≠ .psg then ⟨c, pcmSample p mode m c⟩
  else if isDutyId ch then ⟨c, dutySample p c⟩
  else if isNoiseId ch then ⟨{ c with reg := noiseAdvance c.reg }, wordOfInt (noiseAdvance c.reg).psgLast⟩
  else ⟨c, 0⟩

/-- GENERATE_SAMPLE (R190). -/
def execGenerateSample (ch : ChanId) (s : State) : Host.Outcome State Fault Refusal :=
  if s.cfg.tablesReady = false then .refused .tablesNotReady
  else
    let g := generateChannel s.params s.cfg.interp s.mem ch (s.chan ch)
    s.complete ch g.chan g.res

/-- Where the fill position goes after a push (R197): the next element, wrapped to the loop start in loop mode, held
at the last element otherwise. -/
def nextFill (g : SoundRegister) (fill : Nat) : Nat :=
  if fill + 1 ≥ g.totalLength then (if g.repeatMode = .loop then g.loopStart else fill) else fill + 1

/-- RingPushNext (R197): the window slides by one and the next element enters at `win[HALF]`. -/
def ringPushNext (m : SampleMemory) (g : SoundRegister) (r : Ring) : Ring :=
  { r with
    win := r.win.tail ++ [sampleRead m g.source r.fillPos]
    fillPos := nextFill g r.fillPos }

/-- RingPushNext, `n` times. -/
def ringPushMany (m : SampleMemory) (g : SoundRegister) : Nat → Ring → Ring
  | 0, r => r
  | n + 1, r => ringPushMany m g n (ringPushNext m g r)

/-- RingStart (R196): every entry a copy of sample 0, then HALF + 1 real samples. -/
def ringStart (p : Params) (m : SampleMemory) (g : SoundRegister) : Ring :=
  let filled : Ring := ⟨List.replicate (2 * p.half + 1) (sampleRead m g.source 0), 0, false⟩
  { ringPushMany m g (p.half + 1) filled with ringValid := true }

/-- How many times the loop wrap subtracts the loop length (R199): the least number that brings `pos` below the
total length (log 9). -/
def wrapCount (pos : Rat) (length total : Nat) : Nat :=
  (ratFloor ((pos - (total : Rat)) / (length : Rat))).toNat + 1

/-- EndOfData (R199), called with the position at or past the total length; none where the loop of the rule would
not end. -/
def endOfData (p : Params) (c : Channel) : Option Channel :=
  if c.reg.repeatMode = .loop then
    if c.reg.length = 0 then none
    else
      let n := wrapCount c.reg.samplePosition c.reg.length c.reg.totalLength
      some { c with reg := { c.reg with
        samplePosition := c.reg.samplePosition - (n : Rat) * (c.reg.length : Rat) } }
  else some (killAction p c)

/-- The ring after an advance from `old` to `new` (R194): the first fill on the crossing, then one push for every
integer step; nothing in pre-roll. -/
def advanceRing (p : Params) (m : SampleMemory) (g : SoundRegister) (old new : Rat) (r : Ring) : Ring :=
  if new < 0 then r
  else if old < 0 then ringPushMany m g (ratFloor new).toNat (ringStart p m g)
  else ringPushMany m g (ratFloor new - ratFloor old).toNat r

/-- INCREMENT_SAMPLE on a sounding channel (R194): ring pushes, position write, end of data. -/
def incrementChannel (p : Params) (m : SampleMemory) (c : Channel) : Option Channel :=
  let old := c.reg.samplePosition
  let new := old + c.reg.sampleIncrease
  let moved := { c with reg := { c.reg with samplePosition := new } }
  if c.reg.format = .psg then some moved
  else
    let c1 := { moved with ring := advanceRing p m c.reg old new c.ring }
    if new ≥ (c.reg.totalLength : Rat) then endOfData p c1 else some c1

/-- INCREMENT_SAMPLE (R194). -/
def execIncrementSample (ch : ChanId) (s : State) : Host.Outcome State Fault Refusal :=
  if s.cfg.tablesReady = false then .refused .tablesNotReady
  else if (s.chan ch).state = .none ∨ (s.chan ch).state = .start then .next (s.setRes 0)
  else
    match incrementChannel s.params s.mem (s.chan ch) with
    | none => .fault .loopWrapDiverges
    | some c => s.complete ch c 0

end Sys2Proof.Machine
end

