-- ==== Sys2Proof/Machine/Lifecycle.lean ====
section
/-! DEFINITION. The note lifecycle commands TRIGGER_START, NOTE_PARAMS, RELEASE and KILL (spec/40_lifecycle.md). -/

namespace Sys2Proof.Machine

/-- The operand checks of TRIGGER_START in the order of its pseudocode (R110; F6, F7, F8). The sum of loop start
and length is a mathematical integer (R9). -/
def triggerCheck (p : Params) (o : TriggerOps) : Option Refusal :=
  if crRepeatMode o.cr = .reserved then some .reservedRepeatMode
  else if p.nTracks ≤ o.trackId.toNat then some .trackIdOutOfRange
  else if crFormat o.cr = .psg then none
  else if o.source = 0#32 then some .nullSource
  else if o.repeatPoint.toNat + o.length.toNat = 0 then some .zeroLengthSample
  else if crRepeatMode o.cr = .loop ∧ o.length.toNat = 0 then some .zeroLengthLoop
  else none

/-- What TRIGGER_START writes (R110, D11); `c.reg`, `c.ampl`, `c.vol`, the ring and `c.baseTimer` are not written. -/
def triggerLatch (c : Channel) (o : TriggerOps) : Channel :=
  { c with
    pend := ⟨o.cr, o.source, o.timer, o.repeatPoint, o.length⟩
    trackId := some o.trackId
    prio := o.priority
    env := ⟨c.env.ampl, o.attack, o.decay, o.sustain, o.release⟩
    state := .start
    flags := allFlags
    noteLength := lenInfinite
    note := ⟨0, 0, 0, 0, 0, o.key, o.orgKey, c.note.baseTimer⟩
    sweep := ⟨0, 0, 0, false⟩
    mod := ⟨.pitch, 0, 0, 0, 0, 0, 0⟩ }

/-- TRIGGER_START (R110). -/
def execTriggerStart (ch : ChanId) (o : TriggerOps) (s : State) : Host.Outcome State Fault Refusal :=
  if s.cfg.tablesReady = false then .refused .tablesNotReady
  else
    match triggerCheck s.params o with
    | some r => .refused r
    | none => s.complete ch (triggerLatch (s.chan ch) o) 0

/-- SweepSetup (R112); `noteLength` is the length NOTE_PARAMS has just written. -/
def sweepSetup (key : BitVec 8) (noteLength : Int) (portaEnable : Bool) (portaKey portaTime : BitVec 8)
    (sweepBase : BitVec 16) : Sweep :=
  if portaEnable = false then ⟨0, 0, signedOp sweepBase, false⟩
  else
    let pitch := signedOp sweepBase + (unsignedOp portaKey - unsignedOp key) * semitone
    if portaTime = 0#8 then ⟨noteLength, 0, pitch, true⟩
    else ⟨asr ((pitch.natAbs : Int) * unsignedOp portaTime * unsignedOp portaTime) 11, 0, pitch, false⟩

/-- What NOTE_PARAMS writes (R111). -/
def noteLatch (c : Channel) (o : NoteOps) : Channel :=
  { c with
    noteLength := signedOp o.noteLength
    note := { c.note with velocity := signedOp o.velocity, pan := signedOp o.pan }
    sweep := sweepSetup c.note.key (signedOp o.noteLength) o.portaEnable o.portaKey o.portaTime o.sweepBase
    flags := allFlags }

/-- NOTE_PARAMS (R111). -/
def execNoteParams (ch : ChanId) (o : NoteOps) (s : State) : Host.Outcome State Fault Refusal :=
  if s.cfg.tablesReady = false then .refused .tablesNotReady
  else if (s.chan ch).state = .none then .refused .noNote
  else if signedOp o.noteLength = 0 ∨ signedOp o.noteLength < lenInfinite then .refused .reservedNoteLength
  else s.complete ch (noteLatch (s.chan ch) o) 0

/-- RELEASE (R113). -/
def execRelease (ch : ChanId) (s : State) : Host.Outcome State Fault Refusal :=
  if s.cfg.tablesReady = false then .refused .tablesNotReady
  else if (s.chan ch).state = .none ∨ (s.chan ch).state = .start then .refused .notSounding
  else s.complete ch (releaseAction (s.chan ch)) 0

/-- KILL (R114): "Legal in every state, including `None` (idempotent) and before INIT_TABLES." -/
def execKill (ch : ChanId) (s : State) : Host.Outcome State Fault Refusal :=
  s.complete ch (killAction s.params (s.chan ch)) 0

end Sys2Proof.Machine
end

