-- ==== Sys2Proof/Machine/System.lean ====
section
/-! DEFINITION. The system commands NOP, INIT_TABLES, SET_INTERP, SET_RATE and READ (spec/46_system.md). -/

namespace Sys2Proof.Machine

/-- NOP (R240): "no state changes, `RES <- 0`. Never refused." -/
def execNop (s : State) : Host.Outcome State Fault Refusal := .next (s.setRes 0)

/-- INIT_TABLES (R241). -/
def execInitTables (s : State) : Host.Outcome State Fault Refusal :=
  .next ((s.setCfg { s.cfg with tablesReady := true }).setRes 0)

/-- SET_INTERP (R242). -/
def execSetInterp (mode : BitVec 3) (s : State) : Host.Outcome State Fault Refusal :=
  match interpModeOf mode with
  | none => .refused .reservedInterpMode
  | some m => .next ((s.setCfg { s.cfg with interp := m }).setRes 0)

/-- SET_RATE (R243). -/
def execSetRate (rate : BitVec 32) (s : State) : Host.Outcome State Fault Refusal :=
  if rate = 0#32 then .refused .zeroSampleRate
  else .next ((s.setCfg { s.cfg with sampleRate := rate }).setRes 0)

/-- The field a READ selector names, as a result word; none for a reserved selector (R244). -/
def readField (c : Channel) (sel : BitVec 4) : Option Word :=
  if sel = 0#4 then some (BitVec.ofNat 32 c.state.code)
  else if sel = 1#4 then some (trackIdWord c.trackId)
  else if sel = 2#4 then some (c.prio.setWidth 32)
  else if sel = 3#4 then some (BitVec.ofNat 32 c.vol)
  else if sel = 4#4 then some (c.reg.panning.setWidth 32)
  else none

/-- READ (R244): "No side effect; never gated." -/
def execRead (ch : ChanId) (sel : BitVec 4) (s : State) : Host.Outcome State Fault Refusal :=
  match readField (s.chan ch) sel with
  | none => .refused .reservedSelector
  | some r => .next (s.setRes r)

end Sys2Proof.Machine
end

