-- ==== Sys2Proof/Machine/Envelope.lean ====
section
/-! DEFINITION. The Start action and the envelope step of UPDATE (spec/42_update_envelope.md R142 to R146). -/

namespace Sys2Proof.Machine

/-- The live register the Start action populates from the pending snapshot (R142). -/
def startRegister (p : Params) (q : Pending) : SoundRegister where
  volumeMul      := crVolumeMul q.cr
  volumeDiv      := crVolumeDiv q.cr
  panning        := crPanning q.cr
  waveDuty       := crWaveDuty q.cr
  repeatMode     := crRepeatMode q.cr
  format         := crFormat q.cr
  enable         := crEnable q.cr
  source         := q.source
  timer          := q.timer
  psgX           := p.lfsrSeed
  psgLast        := 0
  psgLastCount   := 0
  samplePosition := if crFormat q.cr = .psg then p.prerollPsg else p.prerollPcm
  sampleIncrease := 0
  loopStart      := q.repeatPoint.toNat
  length         := q.length.toNat
  totalLength    := q.repeatPoint.toNat + q.length.toNat

/-- StartAction (R142). -/
def startAction (p : Params) (c : Channel) : Channel :=
  { c with
    reg := startRegister p c.pend
    ring := Ring.cleared p
    note := { c.note with baseTimer := c.pend.timer }
    env := { c.env with ampl := p.amplMin }
    state := .attack }

/-- The high bits of an amplitude, `ampl >> 7` (R143). -/
def highBits (a : Int) : Int := asr a amplFrac

/-- One pass of the attack loop (R143). -/
def attackPass (lvl : AttackCoef) (a : Int) : Int := tdiv (a * unsignedOp lvl) attackScale

/-- The attack loop: passes until the high bits differ from `old`, at most `fuel` of them; none if they never do.
The loop "ends within 128 passes" (R143), so with that fuel none means that it would not end (log 8). -/
def attackLoop (lvl : AttackCoef) (old : Int) : Nat → Int → Option Int
  | 0, _ => none
  | fuel + 1, a =>
    let new := attackPass lvl a
    if highBits new ≠ old then some new else attackLoop lvl old fuel new

/-- AttackStep (R143); none where its loop would not end. -/
def attackStep (c : Channel) : Option Channel :=
  match attackLoop c.env.attackLvl (highBits c.env.ampl) 128 c.env.ampl with
  | none => none
  | some a =>
    let c1 := { c with env := { c.env with ampl := a } }
    some (if a = 0 then { c1 with state := .decay } else c1)

/-- DecayStep (R144). -/
def decayStep (p : Params) (c : Channel) : Channel :=
  let a := c.env.ampl - unsignedOp c.env.decayRate
  let level := sustainEntry p c.env.sustainLvl.toNat
  if a ≤ level then { c with env := { c.env with ampl := level }, state := .sustain }
  else { c with env := { c.env with ampl := a } }

/-- ReleaseStep (R146); on the killing tick `ampl` keeps the decremented value. -/
def releaseStep (p : Params) (c : Channel) : Channel :=
  let c1 := { c with env := { c.env with ampl := c.env.ampl - unsignedOp c.env.releaseRate } }
  if c1.env.ampl ≤ p.amplMin then killAction p c1 else c1

/-- EnvelopeStep (R142): Start populates the channel and falls through to Attack in the same tick. -/
def envelopeStep (p : Params) (c : Channel) : Option Channel :=
  match c.state with
  | .none => some c
  | .start => attackStep (startAction p c)
  | .attack => attackStep c
  | .decay => some (decayStep p c)
  | .sustain => some c
  | .release => some (releaseStep p c)

end Sys2Proof.Machine
end

