-- ==== Sys2Proof/Machine/Recompute.lean ====
section
/-! DEFINITION. Sweep activity, the modulation step and the timer, volume and pan recomputes
(spec/43_modulation_pitch_volume.md). -/

namespace Sys2Proof.Machine

/-- SweepActive (R160). -/
def sweepActive (w : Sweep) : Bool :=
  decide (w.sweepPitch ≠ 0 ∧ w.sweepLen ≠ 0 ∧ (w.sweepCnt : Int) ≤ w.sweepLen)

/-- ModParam (R162): the contribution at the current phase, in the units of its target. -/
def modParam (p : Params) (m : Modulation) : Int :=
  let raw := sine p (m.modCounter.toNat / 256) * unsignedOp m.modRange * unsignedOp m.modDepth
  if m.modType = .volume then asr (raw * modVolFactor) modVolShift else asr raw modPpShift

/-- The phase advance, modulo MOD_PERIOD (R164). -/
def advancePhase (m : Modulation) : ModPhase :=
  BitVec.ofNat _ ((m.modCounter.toNat + m.modSpeed.toNat * 2 ^ modStepShift) % modPeriod)

/-- What the modulation step yields (R161): the registers after it, whether modulation is active, and its
contribution. -/
structure ModResult where
  regs   : Modulation
  active : Bool
  param  : Int
deriving DecidableEq, Repr

/-- ModulationStep (R161). -/
def modulationStep (p : Params) (m : Modulation) : ModResult :=
  if m.modDepth = 0#8 then ⟨m, false, 0⟩
  else if m.modDelayCnt < m.modDelay.toNat then ⟨{ m with modDelayCnt := m.modDelayCnt + 1 }, false, 0⟩
  else ⟨{ m with modCounter := advancePhase m }, true, modParam p m⟩

/-- TimerAdjust (R166), over unbounded integers. -/
def timerAdjust (p : Params) (base : Nat) (pitch : Int) : Nat :=
  let q := -pitch
  let shift := q / octave
  let idx := (q % octave).toNat
  let prod := base * ((pitchEntry p idx).toNat + 65536)
  let e := shift - 16
  let val := if 0 ≤ e then prod * 2 ^ e.toNat else prod / 2 ^ (-e).toNat
  clampNat val timerMin timerMax

/-- The interpolated sweep delta, `tdiv(sweepPitch * (sweepLen − sweepCnt), sweepLen)` (R167). -/
def sweepDelta (w : Sweep) : Int := tdiv (w.sweepPitch * (w.sweepLen - w.sweepCnt)) w.sweepLen

/-- The pitch adjustment of a timer recompute: tune, pitch modulation, sweep (R167). -/
def pitchAdjustment (c : Channel) (sweepOn modOn : Bool) (param : Int) : Int :=
  c.note.extTune + (if modOn && c.mod.modType == .pitch then param else 0)
    + (if sweepOn then sweepDelta c.sweep else 0)

/-- The position increment for a stored timer: `CLOCK_RATE / (2 * sampleRate * (65536 − timer))` (R168). -/
def incrementOf (p : Params) (rate : BitVec 32) (timer : BitVec 16) : Rat :=
  (p.clockRate : Rat) / (2 * (rate.toNat : Rat) * (65536 - (timer.toNat : Rat)))

/-- TimerRecompute with IncrementRecompute (R167, R168). -/
def timerRecompute (p : Params) (rate : BitVec 32) (sweepOn modOn : Bool) (param : Int) (c : Channel) : Channel :=
  let tmr := timerAdjust p c.note.baseTimer.toNat (pitchAdjustment c sweepOn modOn param)
  let timer : BitVec 16 := BitVec.ofInt 16 (-(tmr : Int))
  { c with
    sweep :=
      if sweepOn && !c.sweep.manualSweep then { c.sweep with sweepCnt := c.sweep.sweepCnt + 1 } else c.sweep
    reg := { c.reg with timer := timer, sampleIncrease := incrementOf p rate timer }
    flags := c.flags.clearTmr }

/-- The clamped centibel sum of a volume recompute (R169). -/
def volumeTotal (p : Params) (c : Channel) (modOn : Bool) (param : Int) : Int :=
  clampInt
    (asr c.env.ampl amplFrac + c.note.extAmpl + c.note.velocity
      + (if modOn && c.mod.modType == .volume then param else 0) + p.volK)
    0 p.volMax

/-- The divider code of a clamped sum, by the three cutoffs, strict `<` (R169, D22). -/
def dividerOf (p : Params) (total : Int) : VolDiv :=
  if total < p.volCut3 then 3 else if total < p.volCut2 then 2 else if total < p.volCut1 then 1 else 0

/-- DivShift (R170). -/
def divShift (d : VolDiv) : Nat :=
  if d = 0#2 then volDivShift0 else if d = 1#2 then volDivShift1 else if d = 2#2 then volDivShift2 else volDivShift3

/-- The cached net linear volume, `(volumeMul << 4) >> DivShift(volumeDiv)` (R169, R170). -/
def linearVolume (mul : VolMul) (div : VolDiv) : Nat := mul.toNat * 16 / 2 ^ divShift div

/-- VolumeRecompute (R169). -/
def volumeRecompute (p : Params) (modOn : Bool) (param : Int) (c : Channel) : Channel :=
  let total := volumeTotal p c modOn param
  let mul := volEntry p total.toNat
  let div := dividerOf p total
  { c with
    reg := { c.reg with volumeMul := mul, volumeDiv := div }
    vol := linearVolume mul div
    flags := c.flags.clearVol }

/-- The pan sum, clamped to the pan range (R171). -/
def panTotal (c : Channel) (modOn : Bool) (param : Int) : Int :=
  clampInt (c.note.pan + c.note.extPan + (if modOn && c.mod.modType == .pan then param else 0) + panMid) panMin panMax

/-- PanRecompute (R171). -/
def panRecompute (modOn : Bool) (param : Int) (c : Channel) : Channel :=
  { c with
    reg := { c.reg with panning := BitVec.ofInt _ (panTotal c modOn param) }
    flags := c.flags.clearPan }

end Sys2Proof.Machine
end

