-- ==== Sys2Proof/Machine/Tick.lean ====
section
/-! DEFINITION. UPDATE, the per-tick step (spec/42_update_envelope.md R140, R141). -/

namespace Sys2Proof.Machine

/-- UPDATE after the envelope step: the modulation step and the three recomputes, each if needed (R140, R165).
`entry` is the state and `sweepOn` the sweep activity sampled before the envelope step. -/
def recomputeCascade (p : Params) (rate : BitVec 32) (entry : EnvState) (sweepOn : Bool) (c : Channel) : Channel :=
  let m := modulationStep p c.mod
  let c1 := { c with mod := m.regs }
  let c2 := if timerNeeded c.flags sweepOn m.active m.regs.modType
    then timerRecompute p rate sweepOn m.active m.param c1 else c1
  let c3 := if volumeNeeded c.flags entry m.active m.regs.modType
    then volumeRecompute p m.active m.param c2 else c2
  if panNeeded c.flags m.active m.regs.modType then panRecompute m.active m.param c3 else c3

/-- UPDATE of a non-idle channel with the rate set (R140): the forced kill (R141), the envelope step, and, unless it
killed the channel, the cascade. None where the attack loop would not end. -/
def tickChannel (p : Params) (rate : BitVec 32) (c : Channel) : Option Channel :=
  if c.state.pastStart = true ∧ c.reg.enable = false then some (killAction p c)
  else
    match envelopeStep p c with
    | none => none
    | some c1 =>
      if c1.state = .none then some c1
      else some (recomputeCascade p rate c.state (sweepActive c.sweep) c1)

/-- UPDATE (R140). -/
def execUpdate (ch : ChanId) (s : State) : Host.Outcome State Fault Refusal :=
  if s.cfg.tablesReady = false then .refused .tablesNotReady
  else if (s.chan ch).state = .none then .next (s.setRes 0)
  else if s.cfg.sampleRate = 0#32 then .refused .sampleRateNotSet
  else
    match tickChannel s.params s.cfg.sampleRate (s.chan ch) with
    | none => .fault .attackStepDiverges
    | some c => s.complete ch c 0

end Sys2Proof.Machine
end

