-- ==== Sys2Proof/Machine/Track.lean ====
section
/-! DEFINITION. TRACK_UPDATE and its five parts (spec/41_track_update.md). -/

namespace Sys2Proof.Machine

/-- The countdown of LengthPart in Attack, Decay and Sustain, with the release at zero (R131). -/
def countNote (c : Channel) : Channel :=
  if c.state ≠ .release ∧ c.noteLength > 0 then
    if c.noteLength - 1 = 0 then releaseAction c else { c with noteLength := c.noteLength - 1 }
  else c

/-- The manual sweep advance of LengthPart, bounded by the sweep length (R131, D19). -/
def advanceManualSweep (c : Channel) : Channel :=
  if c.sweep.manualSweep = true ∧ (c.sweep.sweepCnt : Int) < c.sweep.sweepLen then
    { c with sweep := { c.sweep with sweepCnt := c.sweep.sweepCnt + 1 } }
  else c

/-- LengthPart (R131). -/
def lengthPart (c : Channel) : Channel :=
  if c.state.pastStart = false then c else advanceManualSweep (countNote c)

/-- VolumePart (R132): master + sequence + track + expression, not clamped. -/
def volumePart (o : TrackOps) (c : Channel) : Channel :=
  { c with
    note := { c.note with
      extAmpl := signedOp o.volMaster + signedOp o.volSeq + signedOp o.volTrack + signedOp o.volExpr }
    flags := c.flags.setVol }

/-- PanPart (R133). -/
def panPart (o : TrackOps) (c : Channel) : Channel :=
  { c with note := { c.note with extPan := signedOp o.pan }, flags := c.flags.setPan }

/-- TimerPart (R134). -/
def timerPart (o : TrackOps) (c : Channel) : Channel :=
  { c with
    note := { c.note with
      extTune := (unsignedOp c.note.key - unsignedOp c.note.orgKey) * semitone
        + asr (signedOp o.pitchBend * unsignedOp o.pitchBendRange) 1 }
    flags := c.flags.setTmr }

/-- ModPart (R135); `t` is the modulation type the operand names. The delay count and the phase are not written. -/
def modPart (o : TrackOps) (t : ModType) (c : Channel) : Channel :=
  { c with
    mod := { c.mod with
      modType := t, modSpeed := o.modSpeed, modDepth := o.modDepth, modRange := o.modRange,
      modDelay := o.modDelay }
    flags := if c.mod.modType = t then c.flags else (c.flags.setTarget c.mod.modType).setTarget t }

/-- The five parts in flag-bit order, each only if its flag is set (R130). `t` is used only with TUF_MOD. -/
def trackParts (flags : BitVec 5) (o : TrackOps) (t : Option ModType) (c : Channel) : Channel :=
  let c1 := if flags.getLsbD 0 then lengthPart c else c
  let c2 := if flags.getLsbD 1 then volumePart o c1 else c1
  let c3 := if flags.getLsbD 2 then panPart o c2 else c2
  let c4 := if flags.getLsbD 3 then timerPart o c3 else c3
  match t with
  | some t => if flags.getLsbD 4 then modPart o t c4 else c4
  | none => c4

/-- TRACK_UPDATE (R130): "no owner, or nothing changed: no effect". -/
def execTrackUpdate (ch : ChanId) (flags : BitVec 5) (o : TrackOps) (s : State) :
    Host.Outcome State Fault Refusal :=
  if s.cfg.tablesReady = false then .refused .tablesNotReady
  else if flags.getLsbD 4 = true ∧ modTypeOf o.modType = none then .refused .reservedModType
  else if (s.chan ch).trackId = none ∨ flags = 0#5 then .next (s.setRes 0)
  else s.complete ch (trackParts flags o (modTypeOf o.modType) (s.chan ch)) 0

end Sys2Proof.Machine
end

