-- ==== Sys2Proof/Machine/Dispatch.lean ====
section
/-! DEFINITION. One arm per command (spec/30_encoding.md R83). -/

namespace Sys2Proof.Machine

def exec (i : Instr) (s : State) : Host.Outcome State Fault Refusal :=
  match i with
  | .nop => Sys2Proof.Machine.execNop s
  | .initTables => Sys2Proof.Machine.execInitTables s
  | .setInterp mode => Sys2Proof.Machine.execSetInterp mode s
  | .setRate rate => Sys2Proof.Machine.execSetRate rate s
  | .triggerStart ch ops => Sys2Proof.Machine.execTriggerStart ch ops s
  | .noteParams ch ops => Sys2Proof.Machine.execNoteParams ch ops s
  | .release ch => Sys2Proof.Machine.execRelease ch s
  | .kill ch => Sys2Proof.Machine.execKill ch s
  | .trackUpdate ch flags ops => Sys2Proof.Machine.execTrackUpdate ch flags ops s
  | .update ch => Sys2Proof.Machine.execUpdate ch s
  | .generateSample ch => Sys2Proof.Machine.execGenerateSample ch s
  | .incrementSample ch => Sys2Proof.Machine.execIncrementSample ch s
  | .read ch sel => Sys2Proof.Machine.execRead ch sel s

end Sys2Proof.Machine
end

