-- ==== Sys2Proof/Machine/Step.lean ====
section
/-! DEFINITION. One step: the core takes the next transaction the host issues, decodes it and runs it
(spec/00_scope.md R5, spec/30_encoding.md R80). -/

namespace Sys2Proof.Machine

/-- With no command in the stream "nothing happens until the first command" (R270); a word that is no command is
refused (R88, F1); a command runs on the state with its transaction taken from the stream (log 1). -/
def step (s : State) : Host.Outcome State Fault Refusal :=
  match fetch s with
  | none => .next s
  | some (t, s') =>
    match decode t with
    | .error why => .refused (.reservedEncoding why)
    | .ok i => exec i s'

/-- `s` with the instruction of an opcode-table word as the next transaction of the stream. -/
def State.withFetchWord (s : State) (nbits w : Nat) : State := s.issue (tableTransaction nbits w)

end Sys2Proof.Machine
end

