-- ==== Sys2Proof/Safety.lean ====
section
/-! DEFINITION. What counts as a good state and a safe run: the invariants the spec states for the rules to keep
(spec/10_state.md R26 to R29, R33, R39; spec/44_sample_generation.md R198), the feed sequence of a note, the frames
of R200 and R282, and runs of repeated UPDATEs. -/

namespace Sys2Proof.Machine

/-- Everything but channel `ch` and RES is the same in `t` as in `s` (R282). -/
def State.sameExcept (s t : State) (ch : ChanId) : Prop :=
  t.params = s.params ∧ t.mem = s.mem ∧ t.commands = s.commands ∧ t.cfg = s.cfg ∧
    ∀ d : ChanId, d ≠ ch → t.chan d = s.chan d

/-- The channel a command names, none for a global command (R81). -/
def channelOf : Instr → Option ChanId
  | .nop => none
  | .initTables => none
  | .setInterp _ => none
  | .setRate _ => none
  | .triggerStart ch _ => some ch
  | .noteParams ch _ => some ch
  | .release ch => some ch
  | .kill ch => some ch
  | .trackUpdate ch _ _ => some ch
  | .update ch => some ch
  | .generateSample ch => some ch
  | .incrementSample ch => some ch
  | .read ch _ => some ch

/-- The commands that are refused while `CFG.tablesReady` is false (R241). -/
def gatedByTables : Instr → Bool
  | .nop => false
  | .initTables => false
  | .setInterp _ => false
  | .setRate _ => false
  | .triggerStart _ _ => true
  | .noteParams _ _ => true
  | .release _ => true
  | .kill _ => false
  | .trackUpdate _ _ _ => true
  | .update _ => true
  | .generateSample _ => true
  | .incrementSample _ => true
  | .read _ _ => false

/-- The operand conditions under which TRIGGER_START is accepted (R110; the negations of F6, F7 and F8). -/
def triggerAccepted (p : Params) (o : TriggerOps) : Prop :=
  o.cr.extractLsb' 27 2 ≠ 3#2 ∧ o.trackId.toNat < p.nTracks ∧
    (o.cr.extractLsb' 29 2 ≠ 3#2 → o.source ≠ 0 ∧ 0 < o.repeatPoint.toNat + o.length.toNat ∧
      (o.cr.extractLsb' 27 2 = 1#2 → 0 < o.length.toNat))

/-- R252's table of refusals, F2 to F13, command by command; F1 is a word that is no command. -/
def refusedByR252 (s : State) : Instr → Prop
  | .nop => False
  | .initTables => False
  | .setInterp mode => 5 ≤ mode.toNat
  | .setRate rate => rate = 0
  | .triggerStart _ o => s.cfg.tablesReady = false ∨ ¬ triggerAccepted s.params o
  | .noteParams ch o => s.cfg.tablesReady = false ∨ (s.chan ch).state = .none ∨ o.noteLength.toInt = 0 ∨
      o.noteLength.toInt < -1
  | .release ch => s.cfg.tablesReady = false ∨ (s.chan ch).state = .none ∨ (s.chan ch).state = .start
  | .kill _ => False
  | .trackUpdate _ f o => s.cfg.tablesReady = false ∨ (f.getLsbD 4 = true ∧ o.modType = 3#2)
  | .update ch => s.cfg.tablesReady = false ∨ ((s.chan ch).state ≠ .none ∧ s.cfg.sampleRate = 0)
  | .generateSample _ => s.cfg.tablesReady = false
  | .incrementSample _ => s.cfg.tablesReady = false
  | .read _ sel => 5 ≤ sel.toNat

/-- `d` is `c` after KillAction, its amplitude aside: R114's writes, and nothing else written. -/
def Channel.killedFrom (p : Params) (c d : Channel) : Prop :=
  d.state = .none ∧ d.trackId = none ∧ d.prio = 0 ∧ d.reg = SoundRegister.cleared ∧ d.vol = 0 ∧ d.noteLength = -1 ∧
    d.ring = ⟨List.replicate (2 * p.half + 1) 0, 0, false⟩ ∧
    d.pend = c.pend ∧ d.sweep = c.sweep ∧ d.mod = c.mod ∧ d.note = c.note ∧ d.flags = c.flags ∧
    d.env = { c.env with ampl := d.env.ampl }

/-- Modulation is active on this tick (R161): "`modDepth != 0`, gated by a modulation start delay counted in ticks". -/
abbrev Channel.modulating (c : Channel) : Prop := c.mod.modDepth ≠ 0 ∧ c.mod.modDelay.toNat ≤ c.mod.modDelayCnt

/-- The sweep is active (R160): "`sweepPitch != 0 && sweepLen != 0 && sweepCnt <= sweepLen`". -/
abbrev Channel.sweeping (c : Channel) : Prop :=
  c.sweep.sweepPitch ≠ 0 ∧ c.sweep.sweepLen ≠ 0 ∧ (c.sweep.sweepCnt : Int) ≤ c.sweep.sweepLen

/-- `idx(j)` of R73: the memory index of the `j`-th sample of the playing note. -/
def feedIndex (g : SoundRegister) (j : Int) : Nat :=
  if j < 0 then 0
  else if j < (g.totalLength : Int) then j.toNat
  else if g.repeatMode = .loop then g.loopStart + ((j - (g.loopStart : Int)) % (g.length : Int)).toNat
  else g.totalLength - 1

/-- `feed(j)` of R198. -/
def feed (m : SampleMemory) (g : SoundRegister) (j : Int) : Sample := sampleRead m g.source (feedIndex g j)

/-- R39: an idle channel owns no track and is cleared; a channel in use owns exactly one track id. -/
structure Channel.Owned (p : Params) (c : Channel) : Prop where
  idle : c.state = .none →
    c.trackId = none ∧ c.prio = 0 ∧ c.vol = 0 ∧ c.noteLength = -1 ∧ c.reg = SoundRegister.cleared ∧
      c.ring = Ring.cleared p
  used : c.state ≠ .none → ∃ t : BitVec 8, c.trackId = some t ∧ t.toNat < p.nTracks

/-- The amplitude range of R26 and R148(d): never above 0; in Attack at least AMPL_MIN and below 0; in Decay not below
and in Sustain at the sustain level; never more than 65535 below the least of AMPL_MIN and the sustain levels, and
not below that least value in a sounding state. -/
structure Channel.AmplInRange (p : Params) (c : Channel) : Prop where
  le_zero : c.env.ampl ≤ 0
  attack  : c.state = .attack → p.amplMin ≤ c.env.ampl ∧ c.env.ampl < 0
  decay   : c.state = .decay → sustainEntry p c.env.sustainLvl.toNat ≤ c.env.ampl
  sustain : c.state = .sustain → c.env.ampl = sustainEntry p c.env.sustainLvl.toNat
  floor   : ∀ b : Int, b ≤ p.amplMin → (∀ i < 128, b ≤ sustainEntry p i) →
    b - 65535 ≤ c.env.ampl ∧ (c.state.pastStart = true → b ≤ c.env.ampl)

/-- The counters of R27, R28 and R29. -/
structure Channel.CountersInRange (c : Channel) : Prop where
  noteLength : c.noteLength = -1 ∨ 1 ≤ c.noteLength
  sweepLen   : -1 ≤ c.sweep.sweepLen
  sweepCnt   : c.sweep.sweepCnt = 0 ∨ (c.sweep.sweepCnt : Int) ≤ c.sweep.sweepLen + 1
  modDelay   : c.mod.modDelayCnt ≤ 65535

/-- The cached volume is the net linear volume of the live register (R33, R170), and a triggered note has every
recompute flag raised until its first UPDATE (R110, R172). -/
structure Channel.OutputsConsistent (c : Channel) : Prop where
  vol   : c.vol = linearVolume c.reg.volumeMul c.reg.volumeDiv
  start : c.state = .start → c.flags = allFlags
  timer : c.state.pastStart = true → 1 ≤ c.reg.timer.toNat ∧ c.reg.timer.toNat ≤ 0xFFF0 ∧ 0 < c.reg.sampleIncrease

/-- The geometry TRIGGER_START has checked, in the snapshot while the channel waits in Start and in the live register
after it (R67, R110, R142). -/
structure Channel.GeometryValid (c : Channel) : Prop where
  pending : c.state = .start → crRepeatMode c.pend.cr ≠ .reserved ∧ (crFormat c.pend.cr ≠ .psg →
    c.pend.source ≠ 0 ∧ 0 < c.pend.repeatPoint.toNat + c.pend.length.toNat ∧
      (crRepeatMode c.pend.cr = .loop → 0 < c.pend.length.toNat))
  live : c.state.pastStart = true → c.reg.repeatMode ≠ .reserved ∧
    c.reg.totalLength = c.reg.loopStart + c.reg.length ∧ (c.reg.format ≠ .psg →
      c.reg.source ≠ 0 ∧ 0 < c.reg.totalLength ∧ (c.reg.repeatMode = .loop → 0 < c.reg.length))

/-- The ring invariant of R198 with R73 and R199, on a PCM channel: before the crossing the ring is not valid; from it
on the position is below the total length and, for some unwrapped integer position `U`, the window holds `feed(U + k)`
at every offset and the next push reads `idx(U + HALF + 1)`. -/
structure Channel.RingTracksNote (p : Params) (m : SampleMemory) (c : Channel) : Prop where
  size     : c.ring.win.length = 2 * p.half + 1
  increase : 0 ≤ c.reg.sampleIncrease
  preroll  : c.state.pastStart = true → c.reg.format ≠ .psg → c.reg.samplePosition < 0 → c.ring.ringValid = false
  playing  : c.state.pastStart = true → c.reg.format ≠ .psg → 0 ≤ c.reg.samplePosition →
    c.ring.ringValid = true ∧ c.reg.samplePosition < (c.reg.totalLength : Rat) ∧
      ∃ U : Nat, (feedIndex c.reg U : Int) = ratFloor c.reg.samplePosition ∧
        c.ring.fillPos = feedIndex c.reg (U + p.half + 1) ∧
        ∀ k : Int, -(p.half : Int) ≤ k → k ≤ p.half → winAt p c.ring.win k = feed m c.reg (U + k)

/-- The noise memo of R193: the last output is one of its three values and the register never runs ahead of the
position. -/
structure Channel.NoiseTracksPosition (c : Channel) : Prop where
  last  : c.reg.psgLast = 0 ∨ c.reg.psgLast = noiseLo ∨ c.reg.psgLast = noiseHi
  count : c.state.pastStart = true → c.reg.format = .psg →
    c.reg.psgLastCount = 0 ∨ (c.reg.psgLastCount : Int) ≤ ratFloor c.reg.samplePosition

/-- Everything a channel keeps. -/
structure Channel.Good (p : Params) (m : SampleMemory) (c : Channel) : Prop where
  owned    : c.Owned p
  ampl     : c.AmplInRange p
  counters : c.CountersInRange
  outputs  : c.OutputsConsistent
  geometry : c.GeometryValid
  ring     : c.RingTracksNote p m
  noise    : c.NoiseTracksPosition

/-- The global gates (R241, R243): no note before INIT_TABLES, none past Start before SET_RATE. -/
structure State.GatesHold (s : State) : Prop where
  tables : s.cfg.tablesReady = false → ∀ ch, (s.chan ch).state = .none
  rate   : s.cfg.sampleRate = 0 → ∀ ch, (s.chan ch).state.pastStart = false

/-- A good state: the parameters meet R8, the sample memory is in its canonical form, the gates hold, and every
channel is good. -/
structure State.Good (s : State) : Prop where
  params   : s.params.Valid
  mem      : Memory.wf s.mem = true
  gates    : s.GatesHold
  channels : ∀ ch, (s.chan ch).Good s.params s.mem

/-- The commands of a list one after another, stopping at the first that does not complete. -/
def runCommands : List Instr → State → Host.Outcome State Fault Refusal
  | [], s => .next s
  | i :: rest, s =>
    match exec i s with
    | .next t => runCommands rest t
    | .fault r => .fault r
    | .refused r => .refused r

/-- The commands that set up a note of channel `ch` after its trigger (NOTE_ON, R91). -/
def setsUpNote (ch : ChanId) (i : Instr) : Prop :=
  (∃ o, i = .noteParams ch o) ∨ ∃ f o, i = .trackUpdate ch f o

/-- The widths of the operand fields `OP[0]`, `OP[1]`, … of the command with an opcode (R84); a word past the list is
not named by it. -/
def operandWidths (opcode : BitVec 8) : List Nat :=
  if opcode = 0x03#8 then [32]
  else if opcode = 0x10#8 then [32, 32, 16, 32, 32, 8, 8, 8, 16, 7, 16, 8, 8]
  else if opcode = 0x11#8 then [32, 16, 16, 1, 8, 8, 16]
  else if opcode = 0x20#8 then [16, 16, 16, 16, 16, 8, 8, 2, 8, 8, 8, 16]
  else []

/-- One push in R197's words: the window slides by one, the element at the fill position enters at `win[HALF]`, and the
fill position moves on, wraps to the loop start, or holds. -/
def slideIn (m : SampleMemory) (g : SoundRegister) (r : Ring) : Ring :=
  { r with
    win := r.win.drop 1 ++ [sampleRead m g.source r.fillPos]
    fillPos := if r.fillPos + 1 < g.totalLength then r.fillPos + 1
      else if g.repeatMode = .loop then g.loopStart else r.fillPos }

/-- The window R196 starts from: every entry a copy of sample 0, nothing read yet, marked valid. -/
def copiesOfFirst (p : Params) (m : SampleMemory) (g : SoundRegister) : Ring :=
  ⟨List.replicate (2 * p.half + 1) (sampleRead m g.source 0), 0, true⟩

/-- `n` UPDATEs of one channel in a row, stopping at the first that does not complete. -/
def runUpdates (ch : ChanId) : Nat → State → Host.Outcome State Fault Refusal
  | 0, s => .next s
  | n + 1, s =>
    match exec (.update ch) s with
    | .next t => runUpdates ch n t
    | .fault r => .fault r
    | .refused r => .refused r

/-- The octave reduction in the source's words (R166): "reduce it into the range [0, 768) by repeatedly adding/subtracting
768 while counting octave shifts", at most `fuel` times. -/
def octaveReduce : Nat → Int → Int → Int × Int
  | 0, q, shift => (q, shift)
  | fuel + 1, q, shift =>
    if q < 0 then octaveReduce fuel (q + 768) (shift - 1)
    else if q ≥ 768 then octaveReduce fuel (q - 768) (shift + 1)
    else (q, shift)

/-- The timer adjustment in the source's words (R166): the product, the octave shift "saturating to the maximum 16-bit
value if shifting left would overflow 32 bits", the clamp. The 16 fraction bits leave with the shift (D33). -/
def timerAdjustByReduction (p : Params) (base : BitVec 16) (pitch : Int) : Nat :=
  let r := octaveReduce (pitch.natAbs / 768 + 1) (-pitch) 0
  let prod := base.toNat * ((pitchEntry p r.1.toNat).toNat + 65536)
  let shifted :=
    if r.2 < 16 then prod >>> (16 - r.2).toNat
    else if 2 ^ 32 ≤ prod <<< (r.2 - 16).toNat then 0xFFFF
    else prod <<< (r.2 - 16).toNat
  max 0x10 (min shifted 0xFFFF)

/-- The loop wrap in the source's words (R199), "repeated subtraction of loop length", at most `fuel` times. -/
def wrapBySubtraction (length total : Nat) : Nat → Rat → Rat
  | 0, pos => pos
  | fuel + 1, pos =>
    if pos ≥ (total : Rat) then wrapBySubtraction length total fuel (pos - (length : Rat)) else pos

end Sys2Proof.Machine
end

