-- ==== Sys2Proof/Certificates/Slice0/Obligations.lean ====
section
/-! DEFINITION. The statements for the provers, one definition each; OBLIGATIONS.json lists them. None rests on the
parameter values or the memory State.reset carries (log 4, log 6), and none on a value of a free constant. -/

open Sys2Proof Sys2Proof.Machine

/-! ### Encoding and decoding (spec/30_encoding.md) -/

/-- R82, R84: decoding the encoding of any instruction, every field at every value, gives it back. -/
def Obligations.DecodeEncodeRoundTrip : Prop :=
  ∀ i : Instr, decode (encode i) = .ok i

/-- R80, R82, R84, R89: at most one row of the opcode table matches a word; the decoder accepts a transaction exactly
when some row matches its command word, so the operands never make it reject; and two transactions with the same
command word, whose operand words agree in the low bits of the fields that command names, decode alike: words it does
not name, and the bits above a field, are ignored. -/
def Obligations.DecoderFollowsTheOpcodeTable : Prop :=
  (opcodeTable.Pairwise fun a b => ∀ w : Word, ¬ (a.matches w = true ∧ b.matches w = true)) ∧
    (∀ x : Transaction, (∃ i, decode x = .ok i) ↔ ∃ r ∈ opcodeTable, r.matches x.cmd = true) ∧
    ∀ x y : Transaction, x.cmd = y.cmd →
      (∀ k : Fin 13, x.op[k].toNat % 2 ^ (operandWidths (x.cmd.extractLsb' 24 8)).getD k 0
        = y.op[k].toNat % 2 ^ (operandWidths (x.cmd.extractLsb' 24 8)).getD k 0) → decode x = decode y

/-- T1: some command words written out in the spec decode to the command they stand for. -/
def Obligations.SpecWordsDecode : Prop :=
  decodeTableWord 32 0x02000002 = some (.setInterp 2) ∧ decodeTableWord 32 0x12070000 = some (.release 7) ∧
    decodeTableWord 32 0x130E0000 = some (.kill 14) ∧ decodeTableWord 32 0x21080000 = some (.update 8) ∧
    decodeTableWord 32 0x40090004 = some (.read 9 4) ∧ decodeTableWord 32 0x00100000 = none

/-- R80, R88, log 1: with a transaction waiting, step takes it from the stream; if it decodes, step is exec of the
instruction on the rest; if it does not, step refuses; with none waiting nothing happens. -/
def Obligations.StepRunsTheDecodedInstruction : Prop :=
  ∀ s : State,
    (s.commands = [] → step s = .next s) ∧
    ∀ x rest, s.commands = x :: rest →
      (∀ i, decode x = .ok i → step s = exec i { s with commands := rest }) ∧
      (∀ e, decode x = .error e → step s = .refused (.reservedEncoding e))

/-! ### System commands (spec/46_system.md) -/

/-- R240. -/
def Obligations.NopChangesOnlyRes : Prop :=
  ∀ s : State, exec .nop s = .next { s with res := 0 }

/-- R241: INIT_TABLES opens the gate and writes nothing else, a second one changes nothing; while `tablesReady` is false
the seven gated commands are refused and no other command is refused for that reason; no command and no step clears
`tablesReady`. -/
def Obligations.InitTablesOpensTheGate : Prop :=
  (∀ s : State, ∃ t, exec .initTables s = .next t ∧
    t = { s with cfg := { s.cfg with tablesReady := true }, res := 0 } ∧ exec .initTables t = .next t) ∧
  (∀ i s, s.cfg.tablesReady = false →
    (exec i s = .refused .tablesNotReady ↔ gatedByTables i = true)) ∧
  (∀ i s, s.cfg.tablesReady = true → exec i s ≠ .refused .tablesNotReady) ∧
  ∀ s t, step s = .next t → s.cfg.tablesReady = true → t.cfg.tablesReady = true

/-- R242. -/
def Obligations.SetInterpSelectsTheKernel : Prop :=
  ∀ s : State,
    (∀ mode m, (mode, m) ∈ [(0#3, InterpMode.none), (1#3, .linear), (2#3, .lagrange4), (3#3, .lagrange6), (4#3, .sinc)] →
      exec (.setInterp mode) s = .next { s with cfg := { s.cfg with interp := m }, res := 0 }) ∧
    ∀ mode : BitVec 3, 4 < mode.toNat → exec (.setInterp mode) s = .refused .reservedInterpMode

/-- R243: the rate is stored and no stored increment is rescaled. -/
def Obligations.SetRateStoresTheRate : Prop :=
  ∀ s : State,
    (∀ rate : BitVec 32, rate ≠ 0 →
      exec (.setRate rate) s = .next { s with cfg := { s.cfg with sampleRate := rate }, res := 0 }) ∧
    exec (.setRate 0) s = .refused .zeroSampleRate

/-- R244, R87: what each selector returns; nothing else changes; a reserved selector is refused. -/
def Obligations.ReadReturnsTheSelectedField : Prop :=
  ∀ (ch : ChanId) (s : State),
    (∀ e n, (e, n) ∈ [(EnvState.none, 0#32), (.start, 1), (.attack, 2), (.decay, 3), (.sustain, 4), (.release, 5)] →
      (s.chan ch).state = e → exec (.read ch 0) s = .next { s with res := n }) ∧
    ((s.chan ch).trackId = none → exec (.read ch 1) s = .next { s with res := 0xFFFFFFFF }) ∧
    (∀ t, (s.chan ch).trackId = some t → exec (.read ch 1) s = .next { s with res := BitVec.ofNat 32 t.toNat }) ∧
    exec (.read ch 2) s = .next { s with res := BitVec.ofNat 32 (s.chan ch).prio.toNat } ∧
    exec (.read ch 3) s = .next { s with res := BitVec.ofNat 32 (s.chan ch).vol } ∧
    exec (.read ch 4) s = .next { s with res := BitVec.ofNat 32 (s.chan ch).reg.panning.toNat } ∧
    ∀ sel : BitVec 4, 4 < sel.toNat → exec (.read ch sel) s = .refused .reservedSelector

/-! ### Note lifecycle (spec/40_lifecycle.md) -/

/-- R110: the whole write set of an accepted TRIGGER_START, and what it does not write. -/
def Obligations.TriggerStartLatchesTheNote : Prop :=
  ∀ (ch : ChanId) (o : TriggerOps) (s : State), s.cfg.tablesReady = true → triggerAccepted s.params o →
    ∃ t, exec (.triggerStart ch o) s = .next t ∧ t.res = 0 ∧ s.sameExcept t ch ∧
      t.chan ch = { s.chan ch with
        state := .start, trackId := some o.trackId, prio := o.priority, noteLength := -1,
        pend := { cr := o.cr, source := o.source, timer := o.timer, repeatPoint := o.repeatPoint, length := o.length },
        env := { (s.chan ch).env with
          attackLvl := o.attack, decayRate := o.decay, sustainLvl := o.sustain, releaseRate := o.release },
        note := { (s.chan ch).note with
          extTune := 0, extPan := 0, extAmpl := 0, velocity := 0, pan := 0, key := o.key, orgKey := o.orgKey },
        sweep := { sweepLen := 0, sweepCnt := 0, sweepPitch := 0, manualSweep := false },
        mod := { modType := .pitch, modSpeed := 0, modDepth := 0, modRange := 0, modDelay := 0, modDelayCnt := 0,
                 modCounter := 0 },
        flags := { updVol := true, updPan := true, updTmr := true } }

/-- R111, R112: the whole write set of an accepted NOTE_PARAMS. -/
def Obligations.NoteParamsLoadsTheNote : Prop :=
  ∀ (ch : ChanId) (o : NoteOps) (s : State), s.cfg.tablesReady = true → (s.chan ch).state ≠ .none →
    o.noteLength.toInt ≠ 0 → -1 ≤ o.noteLength.toInt →
    ∃ t w, exec (.noteParams ch o) s = .next t ∧ t.res = 0 ∧ s.sameExcept t ch ∧
      t.chan ch = { s.chan ch with
        noteLength := o.noteLength.toInt, sweep := w,
        note := { (s.chan ch).note with velocity := o.velocity.toInt, pan := o.pan.toInt },
        flags := { updVol := true, updPan := true, updTmr := true } } ∧
      w.sweepCnt = 0 ∧
      (o.portaEnable = false → w.sweepPitch = o.sweepBase.toInt ∧ w.sweepLen = 0 ∧ w.manualSweep = false) ∧
      (o.portaEnable = true →
        w.sweepPitch = o.sweepBase.toInt + ((o.portaKey.toNat : Int) - ((s.chan ch).note.key.toNat : Int)) * 64 ∧
        (o.portaTime = 0 → w.sweepLen = o.noteLength.toInt ∧ w.manualSweep = true) ∧
        (o.portaTime ≠ 0 →
          w.sweepLen = (w.sweepPitch.natAbs : Int) * (o.portaTime.toNat : Int) * (o.portaTime.toNat : Int) / 2048 ∧
          w.manualSweep = false))

/-- R112 (a) to (c), R160, R167: a sweep that is not enabled, or manual under an infinite note, is never active; an
active one starts displaced by the whole pitch, never grows, and ends on the note's own key. -/
def Obligations.SweepGlidesToItsOwnKey : Prop :=
  (∀ key porta time base n, sweepActive (sweepSetup key n false porta time base) = false) ∧
  (∀ key porta base, sweepActive (sweepSetup key (-1) true porta 0 base) = false) ∧
  ∀ w : Sweep, 0 < w.sweepLen →
    (w.sweepCnt = 0 → sweepDelta w = w.sweepPitch) ∧
    ((w.sweepCnt : Int) = w.sweepLen → sweepDelta w = 0) ∧
    ((w.sweepCnt : Int) < w.sweepLen →
      (sweepDelta { w with sweepCnt := w.sweepCnt + 1 }).natAbs ≤ (sweepDelta w).natAbs ∧
      (sweepDelta w).natAbs ≤ w.sweepPitch.natAbs)

/-- R113: the three writes in every state past Start, the amplitude and everything else unchanged, and the two
refusals. -/
def Obligations.ReleaseEntersTheReleasePhase : Prop :=
  ∀ (ch : ChanId) (s : State),
    (s.cfg.tablesReady = false → exec (.release ch) s = .refused .tablesNotReady) ∧
    (s.cfg.tablesReady = true → (s.chan ch).state = .none ∨ (s.chan ch).state = .start →
      exec (.release ch) s = .refused .notSounding) ∧
    (s.cfg.tablesReady = true → (s.chan ch).state.pastStart = true →
      ∃ t, exec (.release ch) s = .next t ∧ t.res = 0 ∧ s.sameExcept t ch ∧
        t.chan ch = { s.chan ch with noteLength := -1, prio := 1, state := .release })

/-- R114: KILL in every state; a second KILL changes nothing. -/
def Obligations.KillClearsTheChannel : Prop :=
  ∀ (ch : ChanId) (s : State), ∃ t, exec (.kill ch) s = .next t ∧ t.res = 0 ∧ s.sameExcept t ch ∧
    (s.chan ch).killedFrom s.params (t.chan ch) ∧ (t.chan ch).env.ampl = (s.chan ch).env.ampl ∧
    exec (.kill ch) t = .next t

/-- R41, R114: after KILL a READ of any selector answers what it answers at reset, whatever the channel was. -/
def Obligations.KillRestoresTheVisibleResetState : Prop :=
  ∀ (ch : ChanId) (s t : State) (sel : BitVec 4), exec (.kill ch) s = .next t → sel.toNat ≤ 4 →
    ∃ u v, exec (.read ch sel) t = .next u ∧ exec (.read ch sel) State.reset = .next v ∧ u.res = v.res

/-- R110 with its decision D11, R115, R142: a started note does not depend on what its channel held before. From any
two states of one implementation with the same configuration, TRIGGER_START, any NOTE_PARAMS and TRACK_UPDATEs of the
channel in any order, and the first UPDATE, if they complete from one, complete from the other and leave the same
channel. -/
def Obligations.NoteForgetsThePreviousNote : Prop :=
  ∀ (ch : ChanId) (o : TriggerOps) (between : List Instr) (s s' t : State), s.params = s'.params → s.cfg = s'.cfg →
    (∀ i ∈ between, setsUpNote ch i) →
    runCommands (.triggerStart ch o :: (between ++ [.update ch])) s = .next t →
    ∃ t', runCommands (.triggerStart ch o :: (between ++ [.update ch])) s' = .next t' ∧ t'.chan ch = t.chan ch

/-! ### TRACK_UPDATE (spec/41_track_update.md) -/

/-- R130: the refusal, and the two cases in which the command has no effect. -/
def Obligations.TrackUpdateWithoutOwnerHasNoEffect : Prop :=
  ∀ (ch : ChanId) (f : BitVec 5) (o : TrackOps) (s : State), s.cfg.tablesReady = true →
    (f.getLsbD 4 = true ∧ o.modType = 3#2 → exec (.trackUpdate ch f o) s = .refused .reservedModType) ∧
    (¬ (f.getLsbD 4 = true ∧ o.modType = 3#2) → (s.chan ch).trackId = none ∨ f = 0 →
      exec (.trackUpdate ch f o) s = .next { s with res := 0 })

/-- R132, R133, R134, R135: what the volume, pan, timer and modulation parts write, each exactly when its flag is set. -/
def Obligations.TrackUpdatePropagatesTheTrackValues : Prop :=
  ∀ (ch : ChanId) (f : BitVec 5) (o : TrackOps) (s : State), s.cfg.tablesReady = true →
    ¬ (f.getLsbD 4 = true ∧ o.modType = 3#2) → (s.chan ch).trackId ≠ none → f ≠ 0 →
    ∃ t, exec (.trackUpdate ch f o) s = .next t ∧ t.res = 0 ∧ s.sameExcept t ch ∧
      let c := s.chan ch
      let d := t.chan ch
      let typeChanged := f.getLsbD 4 && d.mod.modType != c.mod.modType
      d.note = { c.note with
        extAmpl := if f.getLsbD 1 then o.volMaster.toInt + o.volSeq.toInt + o.volTrack.toInt + o.volExpr.toInt
          else c.note.extAmpl,
        extPan := if f.getLsbD 2 then o.pan.toInt else c.note.extPan,
        extTune := if f.getLsbD 3 then
            ((c.note.key.toNat : Int) - (c.note.orgKey.toNat : Int)) * 64
              + o.pitchBend.toInt * (o.pitchBendRange.toNat : Int) / 2
          else c.note.extTune } ∧
      (f.getLsbD 4 = false → d.mod = c.mod) ∧
      (f.getLsbD 4 = true → d.mod = { c.mod with
        modType := if o.modType = 0#2 then .pitch else if o.modType = 1#2 then .volume else .pan,
        modSpeed := o.modSpeed, modDepth := o.modDepth, modRange := o.modRange, modDelay := o.modDelay }) ∧
      d.flags.updVol = (c.flags.updVol || f.getLsbD 1 ||
        (typeChanged && (c.mod.modType == .volume || d.mod.modType == .volume))) ∧
      d.flags.updPan = (c.flags.updPan || f.getLsbD 2 ||
        (typeChanged && (c.mod.modType == .pan || d.mod.modType == .pan))) ∧
      d.flags.updTmr = (c.flags.updTmr || f.getLsbD 3 ||
        (typeChanged && (c.mod.modType == .pitch || d.mod.modType == .pitch)))

/-- R131: the length part, exactly when TUF_LEN is set: the countdown in Attack, Decay and Sustain, the release at zero,
and the manual sweep counter in every state past Start. -/
def Obligations.TrackUpdateCountsTheNoteLength : Prop :=
  ∀ (ch : ChanId) (f : BitVec 5) (o : TrackOps) (s : State), s.cfg.tablesReady = true →
    ¬ (f.getLsbD 4 = true ∧ o.modType = 3#2) → (s.chan ch).trackId ≠ none → f ≠ 0 →
    ∃ t, exec (.trackUpdate ch f o) s = .next t ∧
      let c := s.chan ch
      let d := t.chan ch
      let counts := f.getLsbD 0 = true ∧ c.state.pastStart = true ∧ c.state ≠ .release ∧ 0 < c.noteLength
      (¬ counts → d.state = c.state ∧ d.prio = c.prio ∧ d.noteLength = c.noteLength) ∧
      (counts → c.noteLength ≠ 1 → d.state = c.state ∧ d.prio = c.prio ∧ d.noteLength = c.noteLength - 1) ∧
      (counts → c.noteLength = 1 → d.state = .release ∧ d.prio = 1 ∧ d.noteLength = -1) ∧
      d.sweep = { c.sweep with
        sweepCnt :=
          if f.getLsbD 0 = true ∧ c.state.pastStart = true ∧ c.sweep.manualSweep = true ∧
              (c.sweep.sweepCnt : Int) < c.sweep.sweepLen then c.sweep.sweepCnt + 1 else c.sweep.sweepCnt }

/-- R136: TRACK_UPDATE never changes the live register, the cached volume, the envelope, the ring, the snapshot or the
owner, and the only change READ can see is the entry into Release. -/
def Obligations.TrackUpdateNeverTouchesTheOutputs : Prop :=
  ∀ (ch : ChanId) (f : BitVec 5) (o : TrackOps) (s t : State), exec (.trackUpdate ch f o) s = .next t →
    let c := s.chan ch
    let d := t.chan ch
    d.reg = c.reg ∧ d.vol = c.vol ∧ d.env = c.env ∧ d.ring = c.ring ∧ d.pend = c.pend ∧ d.trackId = c.trackId ∧
      ((d.state = c.state ∧ d.prio = c.prio) ∨
        (c.state ∈ [.attack, .decay, .sustain] ∧ d.state = .release ∧ d.prio = 1))

/-! ### UPDATE: top level and envelope (spec/42_update_envelope.md) -/

/-- R140: the idle no-op and the refusal of an unset rate. -/
def Obligations.UpdateIdleOrUnsetRate : Prop :=
  ∀ (ch : ChanId) (s : State), s.cfg.tablesReady = true →
    ((s.chan ch).state = .none → exec (.update ch) s = .next { s with res := 0 }) ∧
    ((s.chan ch).state ≠ .none → s.cfg.sampleRate = 0 → exec (.update ch) s = .refused .sampleRateNotSet)

/-- R141, R255: the forced kill, before the envelope step. -/
def Obligations.UpdateKillsADisabledChannel : Prop :=
  ∀ (ch : ChanId) (s : State), s.cfg.tablesReady = true → s.cfg.sampleRate ≠ 0 →
    (s.chan ch).state.pastStart = true → (s.chan ch).reg.enable = false →
    ∃ t, exec (.update ch) s = .next t ∧ t.res = 0 ∧ s.sameExcept t ch ∧
      (s.chan ch).killedFrom s.params (t.chan ch) ∧ (t.chan ch).env.ampl = (s.chan ch).env.ampl

/-- R142, R143, R147: the Start action copies the whole snapshot into the live register in one UPDATE, and falls through
to one attack step: the amplitude is the first attack value from AMPL_MIN. The registers the recomputes of the same tick write are in the recompute statements. -/
def Obligations.UpdateStartsTheNote : Prop :=
  ∀ (ch : ChanId) (s : State), s.cfg.tablesReady = true → s.cfg.sampleRate ≠ 0 → (s.chan ch).state = .start →
    s.params.amplMin < 0 →
    ∃ t, exec (.update ch) s = .next t ∧ t.res = 0 ∧ s.sameExcept t ch ∧
      let c := s.chan ch
      let d := t.chan ch
      d.reg.waveDuty = c.pend.cr.extractLsb' 24 3 ∧
      d.reg.repeatMode = (if c.pend.cr.extractLsb' 27 2 = 0#2 then .manual
        else if c.pend.cr.extractLsb' 27 2 = 1#2 then .loop
        else if c.pend.cr.extractLsb' 27 2 = 2#2 then .oneShot else .reserved) ∧
      d.reg.format = (if c.pend.cr.extractLsb' 29 2 = 0#2 then .pcm8
        else if c.pend.cr.extractLsb' 29 2 = 1#2 then .pcm16
        else if c.pend.cr.extractLsb' 29 2 = 2#2 then .adpcm else .psg) ∧
      d.reg.enable = c.pend.cr.getLsbD 31 ∧ d.reg.source = c.pend.source ∧
      d.reg.loopStart = c.pend.repeatPoint.toNat ∧ d.reg.length = c.pend.length.toNat ∧
      d.reg.totalLength = c.pend.repeatPoint.toNat + c.pend.length.toNat ∧
      d.reg.samplePosition =
        (if c.pend.cr.extractLsb' 29 2 = 3#2 then s.params.prerollPsg else s.params.prerollPcm) ∧
      d.reg.psgX = s.params.lfsrSeed ∧ d.reg.psgLast = 0 ∧ d.reg.psgLastCount = 0 ∧
      d.note = { c.note with baseTimer := c.pend.timer } ∧
      d.ring = ⟨List.replicate (2 * s.params.half + 1) 0, 0, false⟩ ∧
      d.trackId = c.trackId ∧ d.prio = c.prio ∧ d.pend = c.pend ∧ d.noteLength = c.noteLength ∧
      d.env = { c.env with ampl := d.env.ampl } ∧ s.params.amplMin < d.env.ampl ∧ d.env.ampl ≤ 0 ∧
      (d.state = if d.env.ampl = 0 then .decay else .attack) ∧
      let a := s.params.amplMin
      let pass := fun x : Int => (x * (c.env.attackLvl.toNat : Int)).tdiv 256
      ∃ k, 1 ≤ k ∧ k ≤ 128 ∧ d.env.ampl = pass^[k] a ∧ pass^[k] a / 128 ≠ a / 128 ∧
        ∀ j, 1 ≤ j → j < k → pass^[j] a / 128 = a / 128

/-- R143: the attack loop multiplies by the coefficient over 256, truncating toward zero, at least once and at most 128
times, until the high bits change; at amplitude 0 the channel enters Decay. -/
def Obligations.UpdateStepsTheAttack : Prop :=
  ∀ (ch : ChanId) (s : State), s.cfg.tablesReady = true → s.cfg.sampleRate ≠ 0 → (s.chan ch).state = .attack →
    (s.chan ch).reg.enable = true → (s.chan ch).env.ampl < 0 →
    ∃ t k, exec (.update ch) s = .next t ∧
      let a := (s.chan ch).env.ampl
      let pass := fun x : Int => (x * ((s.chan ch).env.attackLvl.toNat : Int)).tdiv 256
      1 ≤ k ∧ k ≤ 128 ∧ (t.chan ch).env.ampl = pass^[k] a ∧ pass^[k] a / 128 ≠ a / 128 ∧
      (∀ j, 1 ≤ j → j < k → pass^[j] a / 128 = a / 128) ∧
      (t.chan ch).state = if (t.chan ch).env.ampl = 0 then .decay else .attack

/-- R144, R145, R146: one UPDATE of an enabled channel in Decay, Sustain and Release: the amplitude, the transition, and
the kill at the minimum. -/
def Obligations.UpdateStepsDecaySustainRelease : Prop :=
  ∀ (ch : ChanId) (s : State), s.cfg.tablesReady = true → s.cfg.sampleRate ≠ 0 → (s.chan ch).reg.enable = true →
    (s.chan ch).state ∈ [.decay, .sustain, .release] →
    ∃ t, exec (.update ch) s = .next t ∧ s.sameExcept t ch ∧
      let c := s.chan ch
      let d := t.chan ch
      let level := sustainEntry s.params c.env.sustainLvl.toNat
      let down := c.env.ampl - (c.env.decayRate.toNat : Int)
      let out := c.env.ampl - (c.env.releaseRate.toNat : Int)
      (c.state = .decay → (down ≤ level → d.state = .sustain ∧ d.env.ampl = level) ∧
        (level < down → d.state = .decay ∧ d.env.ampl = down)) ∧
      (c.state = .sustain → d.state = .sustain ∧ d.env.ampl = c.env.ampl) ∧
      (c.state = .release → (out ≤ s.params.amplMin → c.killedFrom s.params d ∧ d.env.ampl = out) ∧
        (s.params.amplMin < out → d.state = .release ∧ d.env.ampl = out))

/-- R148(a), V1: an enabled channel in Attack reaches Decay at amplitude 0 within as many ticks as its amplitude has
blocks of high bits below 0. -/
def Obligations.AttackReachesDecayInBoundedTicks : Prop :=
  ∀ (ch : ChanId) (s : State), s.cfg.tablesReady = true → s.cfg.sampleRate ≠ 0 → (s.chan ch).state = .attack →
    (s.chan ch).reg.enable = true → (s.chan ch).env.ampl < 0 →
    ∃ (n : Nat) (t : State), (n : Int) ≤ -((s.chan ch).env.ampl / 128) ∧ runUpdates ch n s = .next t ∧
      (t.chan ch).state = .decay ∧ (t.chan ch).env.ampl = 0

/-- R146, R148(c), V2: with a release rate above 0, Release ends in None after exactly `ceil((ampl − AMPL_MIN) / rate)`
UPDATEs, and until then the amplitude falls by the rate on each. -/
def Obligations.ReleaseEndsAfterExactlyTheCeiling : Prop :=
  ∀ (ch : ChanId) (s : State), s.cfg.tablesReady = true → s.cfg.sampleRate ≠ 0 → (s.chan ch).state = .release →
    (s.chan ch).reg.enable = true → (s.chan ch).env.releaseRate ≠ 0 → s.params.amplMin < (s.chan ch).env.ampl →
    let rate : Int := ((s.chan ch).env.releaseRate.toNat : Int)
    let ticks : Nat := ⌈(((s.chan ch).env.ampl - s.params.amplMin : Int) : ℚ) / (rate : ℚ)⌉.toNat
    (∀ n < ticks, ∃ t, runUpdates ch n s = .next t ∧ (t.chan ch).state = .release ∧
      (t.chan ch).env.ampl = (s.chan ch).env.ampl - n * rate) ∧
    ∃ t, runUpdates ch ticks s = .next t ∧ (t.chan ch).state = .none

/-- R116, R147: every way a channel's state can change, over all commands, each with its cause: the amplitude that
reaches 0, the sustain level or AMPL_MIN, the enable bit, the countdown, the end of the data. -/
def Obligations.OnlyTheListedEventsChangeTheState : Prop :=
  ∀ (i : Instr) (s t : State) (ch : ChanId), exec i s = .next t → (t.chan ch).state ≠ (s.chan ch).state →
    let a := (s.chan ch).state
    let b := (t.chan ch).state
    let e := (s.chan ch).env
    (∃ o, i = .triggerStart ch o ∧ b = .start) ∨
    (i = .kill ch ∧ b = .none) ∨
    (i = .release ch ∧ a ∈ [.attack, .decay, .sustain] ∧ b = .release) ∨
    (∃ f o, i = .trackUpdate ch f o ∧ a ∈ [.attack, .decay, .sustain] ∧ b = .release ∧ f.getLsbD 0 = true ∧
      (s.chan ch).noteLength = 1) ∨
    (i = .update ch ∧
      ((a = .start ∧ b = .attack ∧ (t.chan ch).env.ampl ≠ 0) ∨
        ((a = .start ∨ a = .attack) ∧ b = .decay ∧ (t.chan ch).env.ampl = 0) ∨
        (a = .decay ∧ b = .sustain ∧ (t.chan ch).env.ampl = sustainEntry s.params e.sustainLvl.toNat ∧
          e.ampl - (e.decayRate.toNat : Int) ≤ sustainEntry s.params e.sustainLvl.toNat) ∨
        (a = .release ∧ b = .none ∧ e.ampl - (e.releaseRate.toNat : Int) ≤ s.params.amplMin) ∨
        (a.pastStart = true ∧ (s.chan ch).reg.enable = false ∧ b = .none))) ∨
    (i = .incrementSample ch ∧ a.pastStart = true ∧ b = .none ∧ (s.chan ch).reg.format ≠ .psg ∧
      (s.chan ch).reg.repeatMode ≠ .loop ∧
      ((s.chan ch).reg.totalLength : ℚ) ≤ (s.chan ch).reg.samplePosition + (s.chan ch).reg.sampleIncrease)

/-! ### UPDATE: modulation, sweep and recomputes (spec/43_modulation_pitch_volume.md) -/

/-- R161, R164: on a tick that does not kill the channel, the modulation registers stay (depth 0), count the delay
(delay not over), or advance the phase modulo 0x8000 (active); nothing else of them changes. -/
def Obligations.UpdateAdvancesTheModulation : Prop :=
  ∀ (ch : ChanId) (s t : State), exec (.update ch) s = .next t → (t.chan ch).state ≠ .none →
    let m := (s.chan ch).mod
    (m.modDepth = 0 → (t.chan ch).mod = m) ∧
    (m.modDepth ≠ 0 → m.modDelayCnt < m.modDelay.toNat →
      (t.chan ch).mod = { m with modDelayCnt := m.modDelayCnt + 1 }) ∧
    ((s.chan ch).modulating →
      (t.chan ch).mod = { m with
        modCounter := BitVec.ofNat 15 ((m.modCounter.toNat + m.modSpeed.toNat * 64) % 0x8000) })

/-- R162, R163: SINE is the quarter wave by symmetry; the contribution is SINE at the phase's top seven bits times range
times depth, scaled by 60/16384 for volume and shifted right by 8 otherwise, floors both (decision D18); and its range,
whatever the sine table holds. -/
def Obligations.ModulationContributionIsBounded : Prop :=
  ∀ (p : Params) (m : Modulation),
    let q := fun i : Nat => ((sineEntry p i).toNat : Int)
    let raw := sine p (m.modCounter >>> 8).toNat * (m.modRange.toNat : Int) * (m.modDepth.toNat : Int)
    (∀ i < 128, (i < 32 → sine p i = q i) ∧ (32 ≤ i → i < 64 → sine p i = q (64 - i)) ∧
      (64 ≤ i → i < 96 → sine p i = -q (i - 64)) ∧ (96 ≤ i → sine p i = -q (128 - i))) ∧
    (m.modType = .volume → modParam p m = ⌊((raw * 60 : Int) : ℚ) / 16384⌋) ∧
    (m.modType ≠ .volume → modParam p m = ⌊(raw : ℚ) / 256⌋) ∧
    (m.modType = .volume → -30243 ≤ modParam p m ∧ modParam p m ≤ 30242) ∧
    (m.modType ≠ .volume → -32259 ≤ modParam p m ∧ modParam p m ≤ 32258)

/-- R164: with speed `s` the phase repeats after `512 / gcd(s, 512)` active ticks, and not before when `s` is not 0. -/
def Obligations.ModulationPhaseHasItsPeriod : Prop :=
  ∀ m : Modulation,
    let after := fun n : Nat => ((fun q : Modulation => { q with modCounter := advancePhase q })^[n] m).modCounter
    after (512 / Nat.gcd m.modSpeed.toNat 512) = m.modCounter ∧
    ∀ n, 0 < n → n < 512 / Nat.gcd m.modSpeed.toNat 512 → after n ≠ m.modCounter

/-- R166: the closed form of the timer adjustment is the source's procedure by repeated addition and subtraction, for
every 16-bit base and every pitch. -/
def Obligations.TimerAdjustIsTheOctaveReduction : Prop :=
  ∀ (p : Params) (base : BitVec 16) (pitch : Int),
    timerAdjust p base.toNat pitch = timerAdjustByReduction p base pitch

/-- R165, R167, R168: on a tick that does not kill the channel, a needed timer recompute adjusts the note's base timer by
tune, pitch modulation and sweep, stores 65536 minus the period and the exact increment, and advances an automatic
sweep; a sounding channel that needs none keeps timer, increment and sweep. -/
def Obligations.UpdateRecomputesTheTimer : Prop :=
  ∀ (ch : ChanId) (s t : State), exec (.update ch) s = .next t → (t.chan ch).state ≠ .none →
    let c := s.chan ch
    let d := t.chan ch
    let need := c.flags.updTmr = true ∨ c.sweeping ∨ (c.modulating ∧ c.mod.modType = .pitch)
    let base := if c.state = .start then c.pend.timer else c.note.baseTimer
    let adj := c.note.extTune
      + (if c.modulating ∧ c.mod.modType = .pitch then modParam s.params c.mod else 0)
      + (if c.sweeping then (c.sweep.sweepPitch * (c.sweep.sweepLen - c.sweep.sweepCnt)).tdiv c.sweep.sweepLen else 0)
    let period := timerAdjust s.params base.toNat adj
    (need → 0x10 ≤ period ∧ period ≤ 0xFFFF ∧ d.reg.timer.toNat = 65536 - period ∧
      d.reg.sampleIncrease = (s.params.clockRate : ℚ) / (2 * (s.cfg.sampleRate.toNat : ℚ) * (period : ℚ)) ∧
      d.sweep = { c.sweep with
        sweepCnt :=
          if c.sweeping ∧ c.sweep.manualSweep = false then c.sweep.sweepCnt + 1 else c.sweep.sweepCnt } ∧
      d.flags.updTmr = false ∧ d.note.baseTimer = base) ∧
    (¬ need → d.sweep = c.sweep ∧ (c.state ≠ .start →
      d.reg.timer = c.reg.timer ∧ d.reg.sampleIncrease = c.reg.sampleIncrease))

/-- R165, R169, R170: on a tick that does not kill the channel, a needed volume recompute sums the new amplitude's high
bits, the biases, the modulation and the normalisation constant, clamps, and stores magnitude, divider and cached
volume; a channel that needs none keeps them. -/
def Obligations.UpdateRecomputesTheVolume : Prop :=
  ∀ (ch : ChanId) (s t : State), exec (.update ch) s = .next t → (t.chan ch).state ≠ .none →
    let p := s.params
    let c := s.chan ch
    let d := t.chan ch
    let need := c.flags.updVol = true ∨ c.state ≠ .sustain ∨ (c.modulating ∧ c.mod.modType = .volume)
    let total : Int := max 0 (min (p.volMax : Int) (d.env.ampl / 128 + c.note.extAmpl + c.note.velocity
      + (if c.modulating ∧ c.mod.modType = .volume then modParam p c.mod else 0) + (p.volK : Int)))
    (need → d.reg.volumeMul = volEntry p total.toNat ∧
      d.reg.volumeDiv = (if total < p.volCut3 then 3 else if total < p.volCut2 then 2
        else if total < p.volCut1 then 1 else 0) ∧
      d.vol = ((d.reg.volumeMul.toNat <<< 4) >>> (if d.reg.volumeDiv = 3 then 4 else d.reg.volumeDiv.toNat)) ∧
      d.vol ≤ 2032 ∧ d.flags.updVol = false) ∧
    (¬ need → d.reg.volumeMul = c.reg.volumeMul ∧ d.reg.volumeDiv = c.reg.volumeDiv ∧ d.vol = c.vol)

/-- R165, R171: on a tick that does not kill the channel, a needed pan recompute sums base pan, bias, modulation and the
mid-point 64 and clamps to 0..127; a sounding channel that needs none keeps its panning. -/
def Obligations.UpdateRecomputesThePan : Prop :=
  ∀ (ch : ChanId) (s t : State), exec (.update ch) s = .next t → (t.chan ch).state ≠ .none →
    let c := s.chan ch
    let d := t.chan ch
    let need := c.flags.updPan = true ∨ (c.modulating ∧ c.mod.modType = .pan)
    (need → (d.reg.panning.toNat : Int) = max 0 (min 127 (c.note.pan + c.note.extPan
      + (if c.modulating ∧ c.mod.modType = .pan then modParam s.params c.mod else 0) + 64)) ∧
      d.flags.updPan = false) ∧
    (¬ need → c.state ≠ .start → d.reg.panning = c.reg.panning)

/-- R31, R172: an UPDATE that leaves the channel alive leaves no flag set; KillAction clears none; every other command
only sets flags. -/
def Obligations.FlagsAreClearedOnlyByTheirRecompute : Prop :=
  (∀ ch s t, exec (.update ch) s = .next t → (t.chan ch).state ≠ .none →
    (t.chan ch).flags = { updVol := false, updPan := false, updTmr := false }) ∧
  ∀ i s t (ch : ChanId), exec i s = .next t → (i ≠ .update ch ∨ (t.chan ch).state = .none) →
    ((s.chan ch).flags.updVol = true → (t.chan ch).flags.updVol = true) ∧
    ((s.chan ch).flags.updPan = true → (t.chan ch).flags.updPan = true) ∧
    ((s.chan ch).flags.updTmr = true → (t.chan ch).flags.updTmr = true)

/-- R140, R167, R172: what an UPDATE of a sounding channel that stays alive does not write. -/
def Obligations.UpdateFrameOfALivingChannel : Prop :=
  ∀ (ch : ChanId) (s t : State), exec (.update ch) s = .next t → (s.chan ch).state.pastStart = true →
    (t.chan ch).state ≠ .none →
    t.res = 0 ∧ s.sameExcept t ch ∧
      let c := s.chan ch
      let d := t.chan ch
      d.trackId = c.trackId ∧ d.prio = c.prio ∧ d.pend = c.pend ∧ d.noteLength = c.noteLength ∧ d.note = c.note ∧
        d.ring = c.ring ∧ d.env = { c.env with ampl := d.env.ampl } ∧
        d.sweep = { c.sweep with sweepCnt := d.sweep.sweepCnt } ∧
        d.reg = { c.reg with
          volumeMul := d.reg.volumeMul, volumeDiv := d.reg.volumeDiv, panning := d.reg.panning,
          timer := d.reg.timer, sampleIncrease := d.reg.sampleIncrease }

/-! ### GENERATE_SAMPLE (spec/44_sample_generation.md, spec/45_interpolation.md) -/

/-- R190: silence in None, Start and pre-roll, and for the PSG format on ids 0..7; nothing but RES changes. -/
def Obligations.GenerateIsSilentOutsideThePlayingPhase : Prop :=
  ∀ (ch : ChanId) (s : State), s.cfg.tablesReady = true →
    ((s.chan ch).state.pastStart = false ∨ (s.chan ch).reg.samplePosition < 0 ∨
      ((s.chan ch).reg.format = .psg ∧ ch.toNat < 8)) →
    exec (.generateSample ch) s = .next { s with res := 0 }

/-- R61, R191, R221: with interpolation NONE a playing PCM channel returns the element at the integer part of the
position, sign-extended; nothing but RES changes. The element is the one the named buffer holds at that index; a buffer
the host places reads back as placed, every other handle as before (the form of the memory is log 6). -/
def Obligations.GenerateNoneReadsTheNearestSample : Prop :=
  (∀ (ch : ChanId) (s : State), s.cfg.tablesReady = true → (s.chan ch).state.pastStart = true →
    0 ≤ (s.chan ch).reg.samplePosition → (s.chan ch).reg.format ≠ .psg → s.cfg.interp = .none →
    exec (.generateSample ch) s = .next { s with
      res := BitVec.ofInt 32
        (sampleRead s.mem (s.chan ch).reg.source ⌊(s.chan ch).reg.samplePosition⌋.toNat).toInt }) ∧
  ∀ m : SampleMemory, Memory.wf m = true →
    (∀ b ∈ m, ∀ i x, b.samples[i]? = some x → sampleRead m b.handle i = x) ∧
    ∀ (src : Handle) (xs : List Sample), Memory.wf (placeBuffer m src xs) = true ∧
      (∀ i x, xs[i]? = some x → sampleRead (placeBuffer m src xs) src i = x) ∧
      ∀ other i, other ≠ src → sampleRead (placeBuffer m src xs) other i = sampleRead m other i

/-- R191, R220, R222, R223, R224: the linear and the two Lagrange kernels over the window, truncated toward zero; their
values always fit the result word; nothing but RES changes. -/
def Obligations.GenerateRunsTheExactKernels : Prop :=
  ∀ (ch : ChanId) (s : State), s.cfg.tablesReady = true → (s.chan ch).state.pastStart = true →
    0 ≤ (s.chan ch).reg.samplePosition → (s.chan ch).reg.format ≠ .psg →
    let f := Int.fract (s.chan ch).reg.samplePosition
    let win := (s.chan ch).ring.win
    ∀ v : ℚ, (s.cfg.interp, v) ∈ [(InterpMode.linear, linearKernel s.params win f),
        (.lagrange4, lagrange4Kernel s.params win f), (.lagrange6, lagrange6Kernel s.params win f)] →
      ∃ n : Int, (0 ≤ v → n = ⌊v⌋) ∧ (v < 0 → n = ⌈v⌉) ∧ -2147483648 ≤ n ∧ n ≤ 2147483647 ∧
        exec (.generateSample ch) s = .next { s with res := BitVec.ofInt 32 n }

/-- R191, R220, R225: the windowed sinc is the weighted sum over the 2·SINC_WIDTH taps divided by the sum of the weights
used, truncated toward zero, wherever that sum is not 0 and the result fits; in every case only RES changes. -/
def Obligations.GenerateRunsTheWindowedSinc : Prop :=
  ∀ (ch : ChanId) (s : State), s.cfg.tablesReady = true → (s.chan ch).state.pastStart = true →
    0 ≤ (s.chan ch).reg.samplePosition → (s.chan ch).reg.format ≠ .psg → s.cfg.interp = .sinc →
    let p := s.params
    let f := Int.fract (s.chan ch).reg.samplePosition
    let inc := (s.chan ch).reg.sampleIncrease
    let W : Int := (p.sincWidth : Int)
    let RES : Int := (p.sincResolution : Int)
    let step : Int := if 1 < inc then ⌊(RES : ℚ) / inc⌋ else RES
    let shift : Int := ⌊f * (RES : ℚ)⌋
    let shiftAdj : Int := ⌊((shift * step : Int) : ℚ) / (RES : ℚ)⌋
    let weight := fun i : Int => sincEntry p (shiftAdj - i * step).natAbs * windowEntry p (shift - i * RES).natAbs
    let ksum := ∑ i ∈ Finset.Icc (-(W - 1)) W, weight i
    let acc := ∑ i ∈ Finset.Icc (-(W - 1)) W, winRat p (s.chan ch).ring.win i * weight i
    (∃ r, exec (.generateSample ch) s = .next { s with res := r }) ∧
    ∀ n : Int, ksum ≠ 0 → (0 ≤ acc / ksum → n = ⌊acc / ksum⌋) → (acc / ksum < 0 → n = ⌈acc / ksum⌉) →
      -2147483648 ≤ n → n ≤ 2147483647 → exec (.generateSample ch) s = .next { s with res := BitVec.ofInt 32 n }

/-- R192: on ids 8..13 the PSG format reads the duty step at the position modulo 8; nothing but RES changes. -/
def Obligations.GenerateReadsTheDutyTable : Prop :=
  ∀ (ch : ChanId) (s : State), s.cfg.tablesReady = true → (s.chan ch).state.pastStart = true →
    0 ≤ (s.chan ch).reg.samplePosition → (s.chan ch).reg.format = .psg → 8 ≤ ch.toNat → ch.toNat ≤ 13 →
    exec (.generateSample ch) s = .next { s with
      res := BitVec.ofInt 32 (dutyEntry s.params (s.chan ch).reg.waveDuty.toNat
        (⌊(s.chan ch).reg.samplePosition⌋ % 8).toNat).toInt }

/-- R193: on ids 14..15 the PSG format runs the LFSR once for every integer position since the last evaluation, with the
tap 0x6000 and the outputs −32767 and +32767, remembers the position, and returns the last output. -/
def Obligations.GenerateRunsTheNoiseRegister : Prop :=
  ∀ (ch : ChanId) (s : State), s.cfg.tablesReady = true → (s.chan ch).state.pastStart = true →
    0 ≤ (s.chan ch).reg.samplePosition → (s.chan ch).reg.format = .psg → 14 ≤ ch.toNat →
    let g := (s.chan ch).reg
    let pos := ⌊g.samplePosition⌋.toNat
    let q := (fun q : BitVec 15 × Int =>
      if q.1.getLsbD 0 then ((q.1 >>> 1) ^^^ 0x6000#15, -32767) else (q.1 >>> 1, 32767))^[pos - g.psgLastCount]
        (g.psgX, g.psgLast)
    exec (.generateSample ch) s = .next ((s.setChan ch { s.chan ch with
      reg := { g with psgX := q.1, psgLast := q.2, psgLastCount := pos } }).setRes (BitVec.ofInt 32 q.2))

/-- R193: "The register advances by position, not by call": evaluating at one position and then at a later one leaves the
noise register exactly as evaluating at the later one alone. -/
def Obligations.NoiseAdvancesByPositionNotByCall : Prop :=
  ∀ (g : SoundRegister) (later : ℚ), (g.psgLastCount : Int) ≤ ⌊g.samplePosition⌋ → ⌊g.samplePosition⌋ ≤ ⌊later⌋ →
    noiseAdvance { noiseAdvance g with samplePosition := later } = noiseAdvance { g with samplePosition := later }

/-- R193, R274: a second GENERATE_SAMPLE right after the first returns the same sample and changes nothing. -/
def Obligations.GenerateTwiceIsGenerateOnce : Prop :=
  ∀ (ch : ChanId) (s t : State), exec (.generateSample ch) s = .next t → exec (.generateSample ch) t = .next t

/-! ### Kernels (spec/45_interpolation.md) -/

/-- R223: the 4-point kernel is the polynomial of degree at most 3 through the four samples, at the fraction. -/
def Obligations.Lagrange4IsTheCubicInterpolant : Prop :=
  ∀ (p : Params) (win : List Sample) (f : ℚ) (P : Polynomial ℚ), P.natDegree ≤ 3 →
    (∀ k : Int, k ∈ [-1, 0, 1, 2] → P.eval (k : ℚ) = winRat p win k) → lagrange4Kernel p win f = P.eval f

/-- R224: the 6-point kernel is the polynomial of degree at most 5 through the six samples, at the fraction: the
half-sample shift is a change of variable. -/
def Obligations.Lagrange6IsTheQuinticInterpolant : Prop :=
  ∀ (p : Params) (win : List Sample) (f : ℚ) (P : Polynomial ℚ), P.natDegree ≤ 5 →
    (∀ k : Int, k ∈ [-2, -1, 0, 1, 2, 3] → P.eval (k : ℚ) = winRat p win k) → lagrange6Kernel p win f = P.eval f

/-- R227: at fraction 0 NONE, LINEAR and both Lagrange kernels return `win[0]` exactly, for any window and increment; on
a window that is constant at the offsets a kernel reads, every kernel returns that constant, the sinc where its
weight sum is not 0. With R191 and R198, in a good state at an integral position a playing PCM channel's
GENERATE_SAMPLE, which in NONE reads memory, gives one and the same RES in NONE, LINEAR and both Lagrange modes. -/
def Obligations.KernelsAgreeAtTheirBoundaries : Prop :=
  (∀ (p : Params) (mode : InterpMode) (win : List Sample) (inc : ℚ), mode ≠ .sinc →
    kernelWord p mode win 0 inc = BitVec.ofInt 32 (winAt p win 0).toInt) ∧
  (∀ (p : Params) (mode : InterpMode) (win : List Sample) (f inc : ℚ) (x : Sample),
    (∀ k : Int, -(p.half : Int) ≤ k → k ≤ p.half → winAt p win k = x) →
    (mode = .sinc → sincWeightSum p f inc ≠ 0) → kernelWord p mode win f inc = BitVec.ofInt 32 x.toInt) ∧
  ∀ (ch : ChanId) (s : State), s.Good → (s.chan ch).state.pastStart = true → (s.chan ch).reg.format ≠ .psg →
    0 ≤ (s.chan ch).reg.samplePosition → Int.fract (s.chan ch).reg.samplePosition = 0 →
    ∃ r, ∀ mode : InterpMode, mode ≠ .sinc →
      exec (.generateSample ch) { s with cfg := { s.cfg with interp := mode } }
        = .next { s with cfg := { s.cfg with interp := mode }, res := r }

/-- R226, R227: at fraction 0 and an increment of at most 1 the sinc returns `win[0]` for every window exactly when its
centre weight is not 0 and its weights at the non-zero integers are; and with R226's required properties, which
`Params.Valid` holds, exactly when the weights at the non-zero integers are 0. -/
def Obligations.SincAgreesAtZeroFractionIffItsTablesDo : Prop :=
  ∀ (p : Params) (inc : ℚ), 1 ≤ p.sincWidth → 1 ≤ p.sincResolution → inc ≤ 1 →
    ((∀ win : List Sample, win.length = 2 * p.half + 1 → sincKernel p win 0 inc = some (winRat p win 0)) ↔
      sincEntry p 0 * windowEntry p 0 ≠ 0 ∧ ∀ j : Nat, 1 ≤ j → j ≤ p.sincWidth →
        sincEntry p (j * p.sincResolution) * windowEntry p (j * p.sincResolution) = 0) ∧
    (p.Valid → ((∀ win : List Sample, win.length = 2 * p.half + 1 → sincKernel p win 0 inc = some (winRat p win 0)) ↔
      ∀ j : Nat, 1 ≤ j → j ≤ p.sincWidth →
        sincEntry p (j * p.sincResolution) * windowEntry p (j * p.sincResolution) = 0))

/-- R222, V4: the linear value is `s0 + f·(s1 − s0)`; at fraction 0 it is `s0`; for a fraction below 1 it lies strictly
between the two samples or equals both; and the truncated result never passes `s1`. -/
def Obligations.LinearStaysBetweenItsSamples : Prop :=
  ∀ (p : Params) (win : List Sample) (f : ℚ), 0 ≤ f → f < 1 →
    let s0 : Int := (winAt p win 0).toInt
    let s1 : Int := (winAt p win 1).toInt
    let v := linearKernel p win f
    v = s0 + f * (s1 - s0) ∧ (f = 0 → v = s0) ∧ (s0 = s1 → v = s0) ∧
      (0 < f → s0 < s1 → (s0 : ℚ) < v ∧ v < s1) ∧ (0 < f → s1 < s0 → (s1 : ℚ) < v ∧ v < s0) ∧
      (s0 ≤ s1 → s0 ≤ ratTrunc v ∧ ratTrunc v ≤ s1) ∧ (s1 ≤ s0 → s1 ≤ ratTrunc v ∧ ratTrunc v ≤ s0)

/-! ### INCREMENT_SAMPLE (spec/44_sample_generation.md) -/

/-- R194: the command does nothing in None and Start, and on a PSG channel only moves the position. -/
def Obligations.IncrementOfIdleAndPsgChannels : Prop :=
  ∀ (ch : ChanId) (s : State), s.cfg.tablesReady = true →
    ((s.chan ch).state.pastStart = false → exec (.incrementSample ch) s = .next { s with res := 0 }) ∧
    ((s.chan ch).state.pastStart = true → (s.chan ch).reg.format = .psg →
      exec (.incrementSample ch) s = .next ((s.setChan ch { s.chan ch with reg := { (s.chan ch).reg with
        samplePosition := (s.chan ch).reg.samplePosition + (s.chan ch).reg.sampleIncrease } }).setRes 0))

/-- R194, R196, R197: a PCM advance that stays below the total length moves the position and the ring and nothing else:
no push in pre-roll, the first fill on the crossing, and exactly the integer delta of pushes. -/
def Obligations.IncrementPushesExactlyTheIntegerDelta : Prop :=
  ∀ (ch : ChanId) (s : State), s.cfg.tablesReady = true → (s.chan ch).state.pastStart = true →
    (s.chan ch).reg.format ≠ .psg →
    let c := s.chan ch
    let old := c.reg.samplePosition
    let new := old + c.reg.sampleIncrease
    let push := slideIn s.mem c.reg
    let copies := copiesOfFirst s.params s.mem c.reg
    new < (c.reg.totalLength : ℚ) →
    ∃ t, exec (.incrementSample ch) s = .next t ∧ t.res = 0 ∧ s.sameExcept t ch ∧
      t.chan ch = { c with reg := { c.reg with samplePosition := new }, ring := (t.chan ch).ring } ∧
      (new < 0 → (t.chan ch).ring = c.ring) ∧
      (0 ≤ old → 0 ≤ new → (t.chan ch).ring = push^[(⌊new⌋ - ⌊old⌋).toNat] c.ring) ∧
      (old < 0 → 0 ≤ new → (t.chan ch).ring = push^[⌊new⌋.toNat] (push^[s.params.half + 1] copies))

/-- R194, R196, R197, R199: at or past the total length, loop mode subtracts the loop length until the position is below
it, landing in the loop with the fraction kept, pushes the integer delta of the unwrapped positions (after the first
fill on the crossing, decision D31), and leaves the state; the other modes kill the channel in the same call, with
KillAction's writes (R114, R195; decision D14). -/
def Obligations.IncrementWrapsTheLoopOrKills : Prop :=
  ∀ (ch : ChanId) (s : State), s.cfg.tablesReady = true → (s.chan ch).state.pastStart = true →
    (s.chan ch).reg.format ≠ .psg →
    let c := s.chan ch
    let old := c.reg.samplePosition
    let new := old + c.reg.sampleIncrease
    let push := slideIn s.mem c.reg
    let copies := copiesOfFirst s.params s.mem c.reg
    (c.reg.totalLength : ℚ) ≤ new →
    (c.reg.repeatMode = .loop → 0 < c.reg.length → c.reg.totalLength = c.reg.loopStart + c.reg.length →
      ∃ t, exec (.incrementSample ch) s = .next t ∧ t.res = 0 ∧ s.sameExcept t ch ∧
        t.chan ch = { c with
          reg := { c.reg with samplePosition := (t.chan ch).reg.samplePosition }, ring := (t.chan ch).ring } ∧
        (c.reg.loopStart : ℚ) ≤ (t.chan ch).reg.samplePosition ∧
        (t.chan ch).reg.samplePosition < (c.reg.totalLength : ℚ) ∧
        Int.fract (t.chan ch).reg.samplePosition = Int.fract new ∧
        (0 ≤ old → (t.chan ch).ring = push^[(⌊new⌋ - ⌊old⌋).toNat] c.ring) ∧
        (old < 0 → (t.chan ch).ring = push^[⌊new⌋.toNat] (push^[s.params.half + 1] copies)) ∧
        ∃ fuel, ∀ n, fuel ≤ n →
          wrapBySubtraction c.reg.length c.reg.totalLength n new = (t.chan ch).reg.samplePosition) ∧
    (c.reg.repeatMode ≠ .loop →
      ∃ t, exec (.incrementSample ch) s = .next t ∧ t.res = 0 ∧ s.sameExcept t ch ∧
        c.killedFrom s.params (t.chan ch) ∧ (t.chan ch).env.ampl = c.env.ampl)

/-! ### Rules about the whole machine -/

/-- R65, R6, R35, R282: no step writes sample memory or a parameter; a command writes no channel but its own, and only
INIT_TABLES, SET_INTERP and SET_RATE write the configuration. -/
def Obligations.CommandsWriteOnlyTheirOwn : Prop :=
  (∀ s t, step s = .next t → t.mem = s.mem ∧ t.params = s.params) ∧
  ∀ i s t, exec i s = .next t →
    t.commands = s.commands ∧ (∀ d, channelOf i ≠ some d → t.chan d = s.chan d) ∧
    (t.cfg ≠ s.cfg → i = .initTables ∨ (∃ m, i = .setInterp m) ∨ ∃ r, i = .setRate r)

/-- R6, R20, R282: a channel command sees only its own channel, the configuration, the parameters and sample memory: two
states that agree on those give the same answer, the same result and the same channel, whatever the other channels
hold. -/
def Obligations.ChannelsDoNotInterfere : Prop :=
  ∀ (i : Instr) (ch : ChanId) (s s' : State), channelOf i = some ch → s.params = s'.params → s.mem = s'.mem →
    s.cfg = s'.cfg → s.chan ch = s'.chan ch →
    (∀ t, exec i s = .next t → ∃ t', exec i s' = .next t' ∧ t'.chan ch = t.chan ch ∧ t'.res = t.res) ∧
    (∀ r, exec i s = .refused r → exec i s' = .refused r) ∧
    (∀ e, exec i s = .fault e → exec i s' = .fault e)

/-- R250, R252: in a good state every command is refused exactly in the cases F2 to F13 of R252, completes in every
other, and never faults. -/
def Obligations.RefusalsAreExactlyThoseListed : Prop :=
  ∀ (i : Instr) (s : State), s.Good →
    (refusedByR252 s i → ∃ r, exec i s = .refused r) ∧ (¬ refusedByR252 s i → ∃ t, exec i s = .next t)

/-- R26 to R29, R33, R39, R67, R193, R198: every step from a good state leaves a good state: ownership, amplitude range,
counters, cached volume, geometry, the ring invariant and the noise memo. -/
def Obligations.EveryStepKeepsTheStateGood : Prop :=
  ∀ s t : State, s.Good → step s = .next t → t.Good

/-- R198 by itself, with the geometry it needs: from any state whose channels have valid geometry and a ring that tracks
the note, a step leaves such a state. -/
def Obligations.EveryStepKeepsTheRingInvariant : Prop :=
  ∀ s t : State, s.params.Valid →
    (∀ ch, (s.chan ch).GeometryValid ∧ (s.chan ch).RingTracksNote s.params s.mem) → step s = .next t →
    ∀ ch, (t.chan ch).GeometryValid ∧ (t.chan ch).RingTracksNote t.params t.mem

/-- R40, R270: the reset state, register by register, whatever the parameters are. RES, which the spec gives no reset
value, is not in it (log 3), nor are the model's own fields `params`, `mem` and `commands` (log 1, log 4, log 6). -/
def Obligations.ResetHoldsTheListedValues : Prop :=
  State.reset = State.resetWith State.reset.params ∧
  ∀ p : Params, (State.resetWith p).params = p ∧
    (State.resetWith p).cfg = { interp := .none, sampleRate := 0, tablesReady := false } ∧
    ∀ ch, (State.resetWith p).chan ch =
      { state := .none, trackId := none, prio := 0, noteLength := -1, vol := 0,
        pend := { cr := 0, source := 0, timer := 0, repeatPoint := 0, length := 0 },
        reg := { volumeMul := 0, volumeDiv := 0, panning := 0, waveDuty := 0, repeatMode := .manual, format := .pcm8,
                 enable := false, source := 0, timer := 0, psgX := 0, psgLast := 0, psgLastCount := 0,
                 samplePosition := 0, sampleIncrease := 0, loopStart := 0, length := 0, totalLength := 0 },
        env := { ampl := 0, attackLvl := 0, decayRate := 0, sustainLvl := 0, releaseRate := 0 },
        sweep := { sweepLen := 0, sweepCnt := 0, sweepPitch := 0, manualSweep := false },
        mod := { modType := .pitch, modSpeed := 0, modDepth := 0, modRange := 0, modDelay := 0, modDelayCnt := 0,
                 modCounter := 0 },
        note := { extTune := 0, extPan := 0, extAmpl := 0, velocity := 0, pan := 0, key := 0, orgKey := 0,
                  baseTimer := 0 },
        flags := { updVol := false, updPan := false, updTmr := false },
        ring := { win := List.replicate (2 * max 3 p.sincWidth + 1) 0, fillPos := 0, ringValid := false } }

/-- R39, R40: the reset state of every implementation whose parameters meet R8 is good (the invariant of
EveryStepKeepsTheStateGood). -/
def Obligations.ResetIsGood : Prop := ∀ p : Params, p.Valid → (State.resetWith p).Good
end

