-- ==== Sys2Proof/Laws/Arith.lean ====
section
/-! SUPPORT. The arithmetic of R9 and R10: what each operation guarantees, said once. -/

namespace Sys2Proof.Machine

/-- The floor of R10 is Mathlib's floor. -/
theorem ratFloor_eq (q : Rat) : ratFloor q = ⌊q⌋ := rfl

theorem ratFloor_le (q : Rat) : (ratFloor q : Rat) ≤ q := by
  rw [ratFloor_eq]; exact Int.floor_le q

theorem lt_ratFloor_add_one (q : Rat) : q < (ratFloor q : Rat) + 1 := by
  rw [ratFloor_eq]; exact Int.lt_floor_add_one q

theorem ratFloor_nonneg {q : Rat} (h : 0 ≤ q) : 0 ≤ ratFloor q := by
  rw [ratFloor_eq]; exact Int.floor_nonneg.mpr h

theorem ratFloor_mono {a b : Rat} (h : a ≤ b) : ratFloor a ≤ ratFloor b := by
  rw [ratFloor_eq, ratFloor_eq]; exact Int.floor_le_floor h

theorem ratFloor_sub_int (q : Rat) (n : Int) : ratFloor (q - n) = ratFloor q - n := by
  rw [ratFloor_eq, ratFloor_eq]; exact Int.floor_sub_intCast q n

/-- "0 ≤ frac < 1" (R10). -/
theorem ratFrac_mem (q : Rat) : 0 ≤ ratFrac q ∧ ratFrac q < 1 := by
  have h1 := ratFloor_le q
  have h2 := lt_ratFloor_add_one q
  unfold ratFrac
  constructor <;> linarith

/-- An arithmetic shift is the floor: `asr a n · 2^n ≤ a < (asr a n + 1) · 2^n` (R9). -/
theorem asr_bounds (a : Int) (n : Nat) : asr a n * 2 ^ n ≤ a ∧ a < (asr a n + 1) * 2 ^ n := by
  have hp : (0 : Int) < 2 ^ n := by positivity
  refine ⟨Int.ediv_mul_le a hp.ne', ?_⟩
  have := Int.lt_ediv_add_one_mul_self a hp
  simpa [asr] using this

theorem asr_nonneg {a : Int} (n : Nat) (h : 0 ≤ a) : 0 ≤ asr a n :=
  Int.ediv_nonneg h (by positivity)

/-- A clamp lands in its interval (R9). -/
theorem clampInt_mem {lo hi : Int} (v : Int) (h : lo ≤ hi) : lo ≤ clampInt v lo hi ∧ clampInt v lo hi ≤ hi := by
  unfold clampInt; split <;> [omega; (split <;> omega)]

/-- A clamp keeps a value already in the interval (R9). -/
theorem clampInt_of_mem {v lo hi : Int} (h1 : lo ≤ v) (h2 : v ≤ hi) : clampInt v lo hi = v := by
  unfold clampInt; split <;> [omega; (split <;> omega)]

/-- An sN operand lies in its two's-complement range (R84). -/
theorem signedOp_bounds {n : Nat} (x : BitVec n) : -(2 ^ (n - 1) : Int) ≤ signedOp x ∧ signedOp x < 2 ^ (n - 1) := by
  unfold signedOp
  refine ⟨?_, BitVec.toInt_lt⟩
  have := BitVec.le_toInt x
  simpa using this

/-- A uN operand lies in its unsigned range (R84). -/
theorem unsignedOp_bounds {n : Nat} (x : BitVec n) : 0 ≤ unsignedOp x ∧ unsignedOp x < 2 ^ n := by
  unfold unsignedOp
  exact ⟨Int.natCast_nonneg _, by exact_mod_cast x.isLt⟩

/-- A clamp lands in its interval (R9). -/
theorem clampNat_mem {lo hi : Nat} (v : Nat) (h : lo ≤ hi) : lo ≤ clampNat v lo hi ∧ clampNat v lo hi ≤ hi := by
  unfold clampNat; constructor <;> split_ifs <;> omega

/-- The phase register is as wide as MOD_PERIOD says, so the phase after a step is the sum modulo 0x8000 (R7, R164). -/
theorem advancePhase_toNat (m : Modulation) :
    (advancePhase m).toNat = (m.modCounter.toNat + m.modSpeed.toNat * 64) % 0x8000 := by
  simp [advancePhase, modStepShift, modPeriod]

/-- An unowned channel's track id as READ returns it (R86). -/
@[simp] theorem trackIdWord_none : trackIdWord none = 0xFFFFFFFF := rfl

/-- The adjusted timer is always within its clamp: "Guaranteed for every input" (R166). -/
theorem timerAdjust_clamped (p : Params) (base : Nat) (pitch : Int) :
    timerMin ≤ timerAdjust p base pitch ∧ timerAdjust p base pitch ≤ timerMax :=
  clampNat_mem _ (by decide)

end Sys2Proof.Machine
end

