-- ==== Sys2Proof/Laws/State.lean ====
section
/-! SUPPORT. One lemma per field per update, true by rfl: the accessors of State and the channel updates, so that
no proof unfolds a record update. -/

namespace Sys2Proof.Machine

@[simp] theorem State.setChan_params (s : State) (ch : ChanId) (c : Channel) : (s.setChan ch c).params = s.params := rfl
@[simp] theorem State.setChan_mem (s : State) (ch : ChanId) (c : Channel) : (s.setChan ch c).mem = s.mem := rfl
@[simp] theorem State.setChan_commands (s : State) (ch : ChanId) (c : Channel) : (s.setChan ch c).commands = s.commands := rfl
@[simp] theorem State.setChan_cfg (s : State) (ch : ChanId) (c : Channel) : (s.setChan ch c).cfg = s.cfg := rfl
@[simp] theorem State.setChan_res (s : State) (ch : ChanId) (c : Channel) : (s.setChan ch c).res = s.res := rfl
@[simp] theorem State.setRes_params (s : State) (r : Word) : (s.setRes r).params = s.params := rfl
@[simp] theorem State.setRes_mem (s : State) (r : Word) : (s.setRes r).mem = s.mem := rfl
@[simp] theorem State.setRes_commands (s : State) (r : Word) : (s.setRes r).commands = s.commands := rfl
@[simp] theorem State.setRes_cfg (s : State) (r : Word) : (s.setRes r).cfg = s.cfg := rfl
@[simp] theorem State.setRes_channels (s : State) (r : Word) : (s.setRes r).channels = s.channels := rfl
@[simp] theorem State.setRes_res_eq (s : State) (r : Word) : (s.setRes r).res = r := rfl
@[simp] theorem State.setRes_chan (s : State) (r : Word) (d : ChanId) : (s.setRes r).chan d = s.chan d := rfl
@[simp] theorem State.setCfg_params (s : State) (g : GlobalRegs) : (s.setCfg g).params = s.params := rfl
@[simp] theorem State.setCfg_mem (s : State) (g : GlobalRegs) : (s.setCfg g).mem = s.mem := rfl
@[simp] theorem State.setCfg_commands (s : State) (g : GlobalRegs) : (s.setCfg g).commands = s.commands := rfl
@[simp] theorem State.setCfg_channels (s : State) (g : GlobalRegs) : (s.setCfg g).channels = s.channels := rfl
@[simp] theorem State.setCfg_res (s : State) (g : GlobalRegs) : (s.setCfg g).res = s.res := rfl
@[simp] theorem State.setCfg_cfg_eq (s : State) (g : GlobalRegs) : (s.setCfg g).cfg = g := rfl
@[simp] theorem State.setCfg_chan (s : State) (g : GlobalRegs) (d : ChanId) : (s.setCfg g).chan d = s.chan d := rfl
@[simp] theorem State.issue_params (s : State) (t : Transaction) : (s.issue t).params = s.params := rfl
@[simp] theorem State.issue_mem (s : State) (t : Transaction) : (s.issue t).mem = s.mem := rfl
@[simp] theorem State.issue_cfg (s : State) (t : Transaction) : (s.issue t).cfg = s.cfg := rfl
@[simp] theorem State.issue_channels (s : State) (t : Transaction) : (s.issue t).channels = s.channels := rfl
@[simp] theorem State.issue_res (s : State) (t : Transaction) : (s.issue t).res = s.res := rfl
@[simp] theorem State.issue_commands_eq (s : State) (t : Transaction) : (s.issue t).commands = t :: s.commands := rfl
@[simp] theorem State.issue_chan (s : State) (t : Transaction) (d : ChanId) : (s.issue t).chan d = s.chan d := rfl

/-- Reading the channel just written. -/
@[simp] theorem State.chan_setChan_same (s : State) (ch : ChanId) (c : Channel) : (s.setChan ch c).chan ch = c := by
  simp [State.chan, State.setChan]

/-- Writing one channel leaves every other alone (R282). -/
@[simp] theorem State.chan_setChan_ne (s : State) {ch d : ChanId} (c : Channel) (h : d ≠ ch) :
    (s.setChan ch c).chan d = s.chan d := by
  have hn : ch.toNat ≠ d.toNat := fun e => h (BitVec.eq_of_toNat_eq e.symm)
  simp [State.chan, State.setChan, hn]

/-- Writing back what is there changes nothing. -/
@[simp] theorem State.setChan_chan_self (s : State) (ch : ChanId) : s.setChan ch (s.chan ch) = s := by
  cases s
  simp [State.chan, State.setChan]

@[simp] theorem State.setChan_setChan (s : State) (ch : ChanId) (c d : Channel) :
    (s.setChan ch c).setChan ch d = s.setChan ch d := by
  cases s
  simp [State.setChan]

@[simp] theorem State.setRes_setRes (s : State) (r q : Word) : (s.setRes r).setRes q = s.setRes q := rfl

theorem State.setChan_setRes_comm (s : State) (ch : ChanId) (c : Channel) (r : Word) :
    (s.setRes r).setChan ch c = (s.setChan ch c).setRes r := rfl

/-- A completed channel command answers the state with that channel and RES written. -/
theorem State.complete_eq (s : State) (ch : ChanId) (c : Channel) (r : Word) :
    s.complete ch c r = .next ((s.setChan ch c).setRes r) := rfl

/-- A completed channel command keeps everything but its channel and RES. -/
theorem State.sameExcept_complete (s : State) (ch : ChanId) (c : Channel) (r : Word) :
    s.sameExcept ((s.setChan ch c).setRes r) ch :=
  ⟨rfl, rfl, rfl, rfl, fun _ h => State.chan_setChan_ne s c h⟩

/-- Every channel of the reset state is the reset channel (R40). -/
@[simp] theorem State.chan_resetWith (p : Params) (ch : ChanId) : (State.resetWith p).chan ch = Channel.reset p := by
  simp [State.chan, State.resetWith]

@[simp] theorem killAction_pend (p : Params) (c : Channel) : (killAction p c).pend = c.pend := rfl
@[simp] theorem killAction_env (p : Params) (c : Channel) : (killAction p c).env = c.env := rfl
@[simp] theorem killAction_sweep (p : Params) (c : Channel) : (killAction p c).sweep = c.sweep := rfl
@[simp] theorem killAction_mod (p : Params) (c : Channel) : (killAction p c).mod = c.mod := rfl
@[simp] theorem killAction_note (p : Params) (c : Channel) : (killAction p c).note = c.note := rfl
@[simp] theorem killAction_flags (p : Params) (c : Channel) : (killAction p c).flags = c.flags := rfl
@[simp] theorem releaseAction_trackId (c : Channel) : (releaseAction c).trackId = c.trackId := rfl
@[simp] theorem releaseAction_pend (c : Channel) : (releaseAction c).pend = c.pend := rfl
@[simp] theorem releaseAction_reg (c : Channel) : (releaseAction c).reg = c.reg := rfl
@[simp] theorem releaseAction_env (c : Channel) : (releaseAction c).env = c.env := rfl
@[simp] theorem releaseAction_sweep (c : Channel) : (releaseAction c).sweep = c.sweep := rfl
@[simp] theorem releaseAction_mod (c : Channel) : (releaseAction c).mod = c.mod := rfl
@[simp] theorem releaseAction_note (c : Channel) : (releaseAction c).note = c.note := rfl
@[simp] theorem releaseAction_flags (c : Channel) : (releaseAction c).flags = c.flags := rfl
@[simp] theorem releaseAction_vol (c : Channel) : (releaseAction c).vol = c.vol := rfl
@[simp] theorem releaseAction_ring (c : Channel) : (releaseAction c).ring = c.ring := rfl
@[simp] theorem triggerLatch_reg (c : Channel) (o : TriggerOps) : (triggerLatch c o).reg = c.reg := rfl
@[simp] theorem triggerLatch_vol (c : Channel) (o : TriggerOps) : (triggerLatch c o).vol = c.vol := rfl
@[simp] theorem triggerLatch_ring (c : Channel) (o : TriggerOps) : (triggerLatch c o).ring = c.ring := rfl
@[simp] theorem noteLatch_state (c : Channel) (o : NoteOps) : (noteLatch c o).state = c.state := rfl
@[simp] theorem noteLatch_trackId (c : Channel) (o : NoteOps) : (noteLatch c o).trackId = c.trackId := rfl
@[simp] theorem noteLatch_prio (c : Channel) (o : NoteOps) : (noteLatch c o).prio = c.prio := rfl
@[simp] theorem noteLatch_pend (c : Channel) (o : NoteOps) : (noteLatch c o).pend = c.pend := rfl
@[simp] theorem noteLatch_reg (c : Channel) (o : NoteOps) : (noteLatch c o).reg = c.reg := rfl
@[simp] theorem noteLatch_env (c : Channel) (o : NoteOps) : (noteLatch c o).env = c.env := rfl
@[simp] theorem noteLatch_mod (c : Channel) (o : NoteOps) : (noteLatch c o).mod = c.mod := rfl
@[simp] theorem noteLatch_vol (c : Channel) (o : NoteOps) : (noteLatch c o).vol = c.vol := rfl
@[simp] theorem noteLatch_ring (c : Channel) (o : NoteOps) : (noteLatch c o).ring = c.ring := rfl
@[simp] theorem volumePart_state (o : TrackOps) (c : Channel) : (volumePart o c).state = c.state := rfl
@[simp] theorem volumePart_trackId (o : TrackOps) (c : Channel) : (volumePart o c).trackId = c.trackId := rfl
@[simp] theorem volumePart_prio (o : TrackOps) (c : Channel) : (volumePart o c).prio = c.prio := rfl
@[simp] theorem volumePart_pend (o : TrackOps) (c : Channel) : (volumePart o c).pend = c.pend := rfl
@[simp] theorem volumePart_reg (o : TrackOps) (c : Channel) : (volumePart o c).reg = c.reg := rfl
@[simp] theorem volumePart_env (o : TrackOps) (c : Channel) : (volumePart o c).env = c.env := rfl
@[simp] theorem volumePart_noteLength (o : TrackOps) (c : Channel) : (volumePart o c).noteLength = c.noteLength := rfl
@[simp] theorem volumePart_sweep (o : TrackOps) (c : Channel) : (volumePart o c).sweep = c.sweep := rfl
@[simp] theorem volumePart_mod (o : TrackOps) (c : Channel) : (volumePart o c).mod = c.mod := rfl
@[simp] theorem volumePart_vol (o : TrackOps) (c : Channel) : (volumePart o c).vol = c.vol := rfl
@[simp] theorem volumePart_ring (o : TrackOps) (c : Channel) : (volumePart o c).ring = c.ring := rfl
@[simp] theorem panPart_state (o : TrackOps) (c : Channel) : (panPart o c).state = c.state := rfl
@[simp] theorem panPart_trackId (o : TrackOps) (c : Channel) : (panPart o c).trackId = c.trackId := rfl
@[simp] theorem panPart_prio (o : TrackOps) (c : Channel) : (panPart o c).prio = c.prio := rfl
@[simp] theorem panPart_pend (o : TrackOps) (c : Channel) : (panPart o c).pend = c.pend := rfl
@[simp] theorem panPart_reg (o : TrackOps) (c : Channel) : (panPart o c).reg = c.reg := rfl
@[simp] theorem panPart_env (o : TrackOps) (c : Channel) : (panPart o c).env = c.env := rfl
@[simp] theorem panPart_noteLength (o : TrackOps) (c : Channel) : (panPart o c).noteLength = c.noteLength := rfl
@[simp] theorem panPart_sweep (o : TrackOps) (c : Channel) : (panPart o c).sweep = c.sweep := rfl
@[simp] theorem panPart_mod (o : TrackOps) (c : Channel) : (panPart o c).mod = c.mod := rfl
@[simp] theorem panPart_vol (o : TrackOps) (c : Channel) : (panPart o c).vol = c.vol := rfl
@[simp] theorem panPart_ring (o : TrackOps) (c : Channel) : (panPart o c).ring = c.ring := rfl
@[simp] theorem timerPart_state (o : TrackOps) (c : Channel) : (timerPart o c).state = c.state := rfl
@[simp] theorem timerPart_trackId (o : TrackOps) (c : Channel) : (timerPart o c).trackId = c.trackId := rfl
@[simp] theorem timerPart_prio (o : TrackOps) (c : Channel) : (timerPart o c).prio = c.prio := rfl
@[simp] theorem timerPart_pend (o : TrackOps) (c : Channel) : (timerPart o c).pend = c.pend := rfl
@[simp] theorem timerPart_reg (o : TrackOps) (c : Channel) : (timerPart o c).reg = c.reg := rfl
@[simp] theorem timerPart_env (o : TrackOps) (c : Channel) : (timerPart o c).env = c.env := rfl
@[simp] theorem timerPart_noteLength (o : TrackOps) (c : Channel) : (timerPart o c).noteLength = c.noteLength := rfl
@[simp] theorem timerPart_sweep (o : TrackOps) (c : Channel) : (timerPart o c).sweep = c.sweep := rfl
@[simp] theorem timerPart_mod (o : TrackOps) (c : Channel) : (timerPart o c).mod = c.mod := rfl
@[simp] theorem timerPart_vol (o : TrackOps) (c : Channel) : (timerPart o c).vol = c.vol := rfl
@[simp] theorem timerPart_ring (o : TrackOps) (c : Channel) : (timerPart o c).ring = c.ring := rfl
@[simp] theorem modPart_state (o : TrackOps) (t : ModType) (c : Channel) : (modPart o t c).state = c.state := rfl
@[simp] theorem modPart_trackId (o : TrackOps) (t : ModType) (c : Channel) : (modPart o t c).trackId = c.trackId := rfl
@[simp] theorem modPart_prio (o : TrackOps) (t : ModType) (c : Channel) : (modPart o t c).prio = c.prio := rfl
@[simp] theorem modPart_pend (o : TrackOps) (t : ModType) (c : Channel) : (modPart o t c).pend = c.pend := rfl
@[simp] theorem modPart_reg (o : TrackOps) (t : ModType) (c : Channel) : (modPart o t c).reg = c.reg := rfl
@[simp] theorem modPart_env (o : TrackOps) (t : ModType) (c : Channel) : (modPart o t c).env = c.env := rfl
@[simp] theorem modPart_noteLength (o : TrackOps) (t : ModType) (c : Channel) : (modPart o t c).noteLength = c.noteLength := rfl
@[simp] theorem modPart_sweep (o : TrackOps) (t : ModType) (c : Channel) : (modPart o t c).sweep = c.sweep := rfl
@[simp] theorem modPart_note (o : TrackOps) (t : ModType) (c : Channel) : (modPart o t c).note = c.note := rfl
@[simp] theorem modPart_vol (o : TrackOps) (t : ModType) (c : Channel) : (modPart o t c).vol = c.vol := rfl
@[simp] theorem modPart_ring (o : TrackOps) (t : ModType) (c : Channel) : (modPart o t c).ring = c.ring := rfl
@[simp] theorem startAction_trackId (p : Params) (c : Channel) : (startAction p c).trackId = c.trackId := rfl
@[simp] theorem startAction_prio (p : Params) (c : Channel) : (startAction p c).prio = c.prio := rfl
@[simp] theorem startAction_pend (p : Params) (c : Channel) : (startAction p c).pend = c.pend := rfl
@[simp] theorem startAction_noteLength (p : Params) (c : Channel) : (startAction p c).noteLength = c.noteLength := rfl
@[simp] theorem startAction_sweep (p : Params) (c : Channel) : (startAction p c).sweep = c.sweep := rfl
@[simp] theorem startAction_mod (p : Params) (c : Channel) : (startAction p c).mod = c.mod := rfl
@[simp] theorem startAction_flags (p : Params) (c : Channel) : (startAction p c).flags = c.flags := rfl
@[simp] theorem startAction_vol (p : Params) (c : Channel) : (startAction p c).vol = c.vol := rfl
@[simp] theorem timerRecompute_state (p : Params) (rate : BitVec 32) (a b : Bool) (x : Int) (c : Channel) : (timerRecompute p rate a b x c).state = c.state := rfl
@[simp] theorem timerRecompute_trackId (p : Params) (rate : BitVec 32) (a b : Bool) (x : Int) (c : Channel) : (timerRecompute p rate a b x c).trackId = c.trackId := rfl
@[simp] theorem timerRecompute_prio (p : Params) (rate : BitVec 32) (a b : Bool) (x : Int) (c : Channel) : (timerRecompute p rate a b x c).prio = c.prio := rfl
@[simp] theorem timerRecompute_pend (p : Params) (rate : BitVec 32) (a b : Bool) (x : Int) (c : Channel) : (timerRecompute p rate a b x c).pend = c.pend := rfl
@[simp] theorem timerRecompute_env (p : Params) (rate : BitVec 32) (a b : Bool) (x : Int) (c : Channel) : (timerRecompute p rate a b x c).env = c.env := rfl
@[simp] theorem timerRecompute_noteLength (p : Params) (rate : BitVec 32) (a b : Bool) (x : Int) (c : Channel) : (timerRecompute p rate a b x c).noteLength = c.noteLength := rfl
@[simp] theorem timerRecompute_mod (p : Params) (rate : BitVec 32) (a b : Bool) (x : Int) (c : Channel) : (timerRecompute p rate a b x c).mod = c.mod := rfl
@[simp] theorem timerRecompute_note (p : Params) (rate : BitVec 32) (a b : Bool) (x : Int) (c : Channel) : (timerRecompute p rate a b x c).note = c.note := rfl
@[simp] theorem timerRecompute_vol (p : Params) (rate : BitVec 32) (a b : Bool) (x : Int) (c : Channel) : (timerRecompute p rate a b x c).vol = c.vol := rfl
@[simp] theorem timerRecompute_ring (p : Params) (rate : BitVec 32) (a b : Bool) (x : Int) (c : Channel) : (timerRecompute p rate a b x c).ring = c.ring := rfl
@[simp] theorem volumeRecompute_state (p : Params) (b : Bool) (x : Int) (c : Channel) : (volumeRecompute p b x c).state = c.state := rfl
@[simp] theorem volumeRecompute_trackId (p : Params) (b : Bool) (x : Int) (c : Channel) : (volumeRecompute p b x c).trackId = c.trackId := rfl
@[simp] theorem volumeRecompute_prio (p : Params) (b : Bool) (x : Int) (c : Channel) : (volumeRecompute p b x c).prio = c.prio := rfl
@[simp] theorem volumeRecompute_pend (p : Params) (b : Bool) (x : Int) (c : Channel) : (volumeRecompute p b x c).pend = c.pend := rfl
@[simp] theorem volumeRecompute_env (p : Params) (b : Bool) (x : Int) (c : Channel) : (volumeRecompute p b x c).env = c.env := rfl
@[simp] theorem volumeRecompute_noteLength (p : Params) (b : Bool) (x : Int) (c : Channel) : (volumeRecompute p b x c).noteLength = c.noteLength := rfl
@[simp] theorem volumeRecompute_sweep (p : Params) (b : Bool) (x : Int) (c : Channel) : (volumeRecompute p b x c).sweep = c.sweep := rfl
@[simp] theorem volumeRecompute_mod (p : Params) (b : Bool) (x : Int) (c : Channel) : (volumeRecompute p b x c).mod = c.mod := rfl
@[simp] theorem volumeRecompute_note (p : Params) (b : Bool) (x : Int) (c : Channel) : (volumeRecompute p b x c).note = c.note := rfl
@[simp] theorem volumeRecompute_ring (p : Params) (b : Bool) (x : Int) (c : Channel) : (volumeRecompute p b x c).ring = c.ring := rfl
@[simp] theorem panRecompute_state (b : Bool) (x : Int) (c : Channel) : (panRecompute b x c).state = c.state := rfl
@[simp] theorem panRecompute_trackId (b : Bool) (x : Int) (c : Channel) : (panRecompute b x c).trackId = c.trackId := rfl
@[simp] theorem panRecompute_prio (b : Bool) (x : Int) (c : Channel) : (panRecompute b x c).prio = c.prio := rfl
@[simp] theorem panRecompute_pend (b : Bool) (x : Int) (c : Channel) : (panRecompute b x c).pend = c.pend := rfl
@[simp] theorem panRecompute_env (b : Bool) (x : Int) (c : Channel) : (panRecompute b x c).env = c.env := rfl
@[simp] theorem panRecompute_noteLength (b : Bool) (x : Int) (c : Channel) : (panRecompute b x c).noteLength = c.noteLength := rfl
@[simp] theorem panRecompute_sweep (b : Bool) (x : Int) (c : Channel) : (panRecompute b x c).sweep = c.sweep := rfl
@[simp] theorem panRecompute_mod (b : Bool) (x : Int) (c : Channel) : (panRecompute b x c).mod = c.mod := rfl
@[simp] theorem panRecompute_note (b : Bool) (x : Int) (c : Channel) : (panRecompute b x c).note = c.note := rfl
@[simp] theorem panRecompute_vol (b : Bool) (x : Int) (c : Channel) : (panRecompute b x c).vol = c.vol := rfl
@[simp] theorem panRecompute_ring (b : Bool) (x : Int) (c : Channel) : (panRecompute b x c).ring = c.ring := rfl

/-- What KillAction writes (R114). -/
@[simp] theorem killAction_written (p : Params) (c : Channel) :
    (killAction p c).state = .none ∧ (killAction p c).trackId = none ∧ (killAction p c).prio = 0 ∧
      (killAction p c).reg = SoundRegister.cleared ∧ (killAction p c).vol = 0 ∧
      (killAction p c).noteLength = -1 ∧ (killAction p c).ring = Ring.cleared p :=
  ⟨rfl, rfl, rfl, rfl, rfl, rfl, rfl⟩

@[simp] theorem killAction_state (p : Params) (c : Channel) : (killAction p c).state = .none := rfl

/-- KillAction twice is KillAction once: "Legal in every state, including `None` (idempotent)" (R114). -/
theorem killAction_idem (p : Params) (c : Channel) : killAction p (killAction p c) = killAction p c := rfl

/-- What ReleaseAction writes (R113). -/
@[simp] theorem releaseAction_written (c : Channel) :
    (releaseAction c).state = .release ∧ (releaseAction c).prio = 1 ∧ (releaseAction c).noteLength = -1 :=
  ⟨rfl, rfl, rfl⟩

end Sys2Proof.Machine
end

