-- ==== Sys2Proof/Laws/Envelope.lean ====
section
/-! SUPPORT. The attack loop and the envelope steps: what each can do, said once (R143 to R146). -/

namespace Sys2Proof.Machine

/-- One attack pass on a negative amplitude moves strictly toward 0 and not past it (R143: "|new| falls by at least 1
per pass for every coefficient 0..255"). -/
theorem attackPass_rises (lvl : BitVec 8) {a : Int} (h : a < 0) : a < attackPass lvl a ∧ attackPass lvl a ≤ 0 := by
  have hl := (unsignedOp_bounds lvl).1
  have hu : unsignedOp lvl ≤ 255 := by have := (unsignedOp_bounds lvl).2; omega
  unfold attackPass tdiv attackScale
  generalize unsignedOp lvl = l at hl hu
  obtain ⟨b, rfl⟩ : ∃ b : Int, a = -b := ⟨-a, by ring⟩
  have hb : 0 < b := by omega
  rw [neg_mul, Int.neg_tdiv, Int.tdiv_eq_ediv_of_nonneg (by positivity)]
  have h1 : 0 ≤ b * l / 256 := Int.ediv_nonneg (by positivity) (by norm_num)
  have h2 : b * l / 256 < b := Int.ediv_lt_of_lt_mul (by norm_num) (by nlinarith)
  omega

/-- The amplitude 0 is a fixed point of the attack pass. -/
theorem attackPass_zero (lvl : BitVec 8) : attackPass lvl 0 = 0 := by simp [attackPass, tdiv]

/-- The high bits never fall when the amplitude rises (R143). -/
theorem highBits_mono {a b : Int} (h : a ≤ b) : highBits a ≤ highBits b := by
  unfold highBits asr amplFrac
  exact Int.ediv_le_ediv (by norm_num) h

/-- The attack loop from a negative amplitude ends: with `fuel` passes left and the amplitude less than `fuel` unit
steps below the next block of high bits, it yields a higher amplitude in a higher block, not above 0 (R143). -/
theorem attackLoop_ends (lvl : BitVec 8) (old : Int) (fuel : Nat) (a : Int) (ha : a < 0) (hold : highBits a = old)
    (hf : (old + 1) * 128 - a ≤ fuel) :
    ∃ b, attackLoop lvl old fuel a = some b ∧ a < b ∧ b ≤ 0 ∧ old < highBits b := by
  induction fuel generalizing a with
  | zero =>
    exfalso
    have := (asr_bounds a 7).2
    unfold highBits amplFrac at hold
    rw [hold] at this
    norm_num at hf this
    omega
  | succ n ih =>
    obtain ⟨h1, h2⟩ := attackPass_rises lvl ha
    have hm := highBits_mono h1.le
    simp only [attackLoop]
    by_cases hne : highBits (attackPass lvl a) ≠ old
    · rw [if_pos hne]
      exact ⟨_, rfl, h1, h2, by omega⟩
    · rw [if_neg hne]
      push Not at hne
      have hneg : attackPass lvl a < 0 := by
        rcases lt_or_eq_of_le h2 with h | h
        · exact h
        · exfalso
          rw [h] at hne
          have : highBits a < 0 := by
            unfold highBits asr amplFrac
            exact Int.ediv_neg_of_neg_of_pos ha (by norm_num)
          have h0 : highBits 0 = 0 := rfl
          omega
      obtain ⟨b, hb, hlt, hle, hh⟩ := ih _ hneg hne (by push_cast at hf ⊢; omega)
      exact ⟨b, hb, by omega, hle, hh⟩

/-- The attack step on a negative amplitude completes within the 128 passes of R143 and raises the high bits. -/
theorem attackStep_completes (c : Channel) (h : c.env.ampl < 0) :
    ∃ a, c.env.ampl < a ∧ a ≤ 0 ∧ highBits c.env.ampl < highBits a ∧
      attackStep c = some (if a = 0 then { c with env := { c.env with ampl := a }, state := .decay }
        else { c with env := { c.env with ampl := a } }) := by
  have hb := (asr_bounds c.env.ampl 7).1
  obtain ⟨a, ha, h1, h2, h3⟩ := attackLoop_ends c.env.attackLvl (highBits c.env.ampl) 128 c.env.ampl h rfl
    (by unfold highBits amplFrac; norm_num at hb; push_cast; omega)
  exact ⟨a, h1, h2, h3, by simp [attackStep, ha]⟩

/-- DecayStep (R144) in one line per outcome. -/
theorem decayStep_cases (p : Params) (c : Channel) :
    (c.env.ampl - unsignedOp c.env.decayRate ≤ sustainEntry p c.env.sustainLvl.toNat ∧
      decayStep p c =
        { c with env := { c.env with ampl := sustainEntry p c.env.sustainLvl.toNat }, state := .sustain }) ∨
    (sustainEntry p c.env.sustainLvl.toNat < c.env.ampl - unsignedOp c.env.decayRate ∧
      decayStep p c = { c with env := { c.env with ampl := c.env.ampl - unsignedOp c.env.decayRate } }) := by
  unfold decayStep
  by_cases h : c.env.ampl - unsignedOp c.env.decayRate ≤ sustainEntry p c.env.sustainLvl.toNat
  · left; simp [h]
  · right; simp [h, not_le.mp h]

/-- ReleaseStep (R146) in one line per outcome. -/
theorem releaseStep_cases (p : Params) (c : Channel) :
    (c.env.ampl - unsignedOp c.env.releaseRate ≤ p.amplMin ∧
      releaseStep p c =
        killAction p { c with env := { c.env with ampl := c.env.ampl - unsignedOp c.env.releaseRate } }) ∨
    (p.amplMin < c.env.ampl - unsignedOp c.env.releaseRate ∧
      releaseStep p c = { c with env := { c.env with ampl := c.env.ampl - unsignedOp c.env.releaseRate } }) := by
  unfold releaseStep
  by_cases h : c.env.ampl - unsignedOp c.env.releaseRate ≤ p.amplMin
  · left; simp [h]
  · right; simp [h, not_le.mp h]

/-- A sustain level is never above 0, listed or open (R8, D24). -/
theorem sustainEntry_le_zero {p : Params} (hp : p.Valid) (i : Nat) : sustainEntry p i ≤ 0 := by
  unfold sustainEntry
  cases h : p.sustainTable[i]? with
  | none => simp
  | some x => exact hp.sustain_le x (List.mem_of_getElem? h)

end Sys2Proof.Machine
end

