-- ==== Sys2Proof/Laws/Exec.lean ====
section
/-! SUPPORT. What a command can do, said once: the inversion lemmas of the meanings, which later proofs cite instead of
unfolding exec. -/

namespace Sys2Proof.Machine

/-- The command writes only RES, or the configuration and RES, or its own channel and RES (R282). -/
inductive Written (i : Instr) (s t : State) : Prop where
  | resOnly (r : Word) (h : t = s.setRes r)
  | config (g : GlobalRegs) (r : Word) (hi : channelOf i = none) (h : t = (s.setCfg g).setRes r)
  | channel (ch : ChanId) (c : Channel) (r : Word) (hi : channelOf i = some ch) (h : t = (s.setChan ch c).setRes r)

theorem execSetInterp_next {mode : BitVec 3} {s t : State} (h : execSetInterp mode s = .next t) :
    ∃ m, interpModeOf mode = some m ∧ t = (s.setCfg { s.cfg with interp := m }).setRes 0 := by
  unfold execSetInterp at h
  split at h
  · cases h
  · rename_i m hm
    cases h
    exact ⟨m, hm, rfl⟩

theorem execSetRate_next {rate : BitVec 32} {s t : State} (h : execSetRate rate s = .next t) :
    rate ≠ 0 ∧ t = (s.setCfg { s.cfg with sampleRate := rate }).setRes 0 := by
  unfold execSetRate at h
  split at h
  · cases h
  · cases h
    exact ⟨‹_›, rfl⟩

theorem execRead_next {ch : ChanId} {sel : BitVec 4} {s t : State} (h : execRead ch sel s = .next t) :
    ∃ r, readField (s.chan ch) sel = some r ∧ t = s.setRes r := by
  unfold execRead at h
  split at h
  · cases h
  · rename_i r hr
    cases h
    exact ⟨r, hr, rfl⟩

theorem execTriggerStart_next {ch : ChanId} {o : TriggerOps} {s t : State} (h : execTriggerStart ch o s = .next t) :
    s.cfg.tablesReady = true ∧ triggerCheck s.params o = none ∧
      t = (s.setChan ch (triggerLatch (s.chan ch) o)).setRes 0 := by
  unfold execTriggerStart at h
  split at h
  · cases h
  · rename_i hr
    split at h
    · cases h
    · cases h
      exact ⟨by simpa using hr, ‹_›, rfl⟩

theorem execNoteParams_next {ch : ChanId} {o : NoteOps} {s t : State} (h : execNoteParams ch o s = .next t) :
    s.cfg.tablesReady = true ∧ (s.chan ch).state ≠ .none ∧ signedOp o.noteLength ≠ 0 ∧ -1 ≤ signedOp o.noteLength ∧
      t = (s.setChan ch (noteLatch (s.chan ch) o)).setRes 0 := by
  unfold execNoteParams at h
  split_ifs at h with h1 h2 h3
  cases h
  push Not at h3
  exact ⟨by simpa using h1, h2, h3.1, h3.2, rfl⟩

theorem execRelease_next {ch : ChanId} {s t : State} (h : execRelease ch s = .next t) :
    s.cfg.tablesReady = true ∧ (s.chan ch).state ≠ .none ∧ (s.chan ch).state ≠ .start ∧
      t = (s.setChan ch (releaseAction (s.chan ch))).setRes 0 := by
  unfold execRelease at h
  split_ifs at h with h1 h2
  cases h
  push Not at h2
  exact ⟨by simpa using h1, h2.1, h2.2, rfl⟩

theorem execTrackUpdate_next {ch : ChanId} {f : BitVec 5} {o : TrackOps} {s t : State}
    (h : execTrackUpdate ch f o s = .next t) :
    s.cfg.tablesReady = true ∧ (f.getLsbD 4 = true → modTypeOf o.modType ≠ none) ∧
      ((((s.chan ch).trackId = none ∨ f = 0) ∧ t = s.setRes 0) ∨
        ((s.chan ch).trackId ≠ none ∧ f ≠ 0 ∧
          t = (s.setChan ch (trackParts f o (modTypeOf o.modType) (s.chan ch))).setRes 0)) := by
  unfold execTrackUpdate at h
  split_ifs at h with h1 h2 h3
  · cases h
    exact ⟨by simpa using h1, fun h4 h5 => h2 ⟨h4, h5⟩, .inl ⟨h3, rfl⟩⟩
  · cases h
    push Not at h3
    exact ⟨by simpa using h1, fun h4 h5 => h2 ⟨h4, h5⟩, .inr ⟨h3.1, h3.2, rfl⟩⟩

theorem execUpdate_next {ch : ChanId} {s t : State} (h : execUpdate ch s = .next t) :
    s.cfg.tablesReady = true ∧
      (((s.chan ch).state = .none ∧ t = s.setRes 0) ∨
        ((s.chan ch).state ≠ .none ∧ s.cfg.sampleRate ≠ 0 ∧
          ∃ c, tickChannel s.params s.cfg.sampleRate (s.chan ch) = some c ∧ t = (s.setChan ch c).setRes 0)) := by
  unfold execUpdate at h
  split_ifs at h with h1 h2 h3
  · cases h
    exact ⟨by simpa using h1, .inl ⟨h2, rfl⟩⟩
  · split at h
    · cases h
    · rename_i c hc
      cases h
      exact ⟨by simpa using h1, .inr ⟨h2, h3, c, hc, rfl⟩⟩

theorem execGenerateSample_next {ch : ChanId} {s t : State} (h : execGenerateSample ch s = .next t) :
    s.cfg.tablesReady = true ∧
      t = (s.setChan ch (generateChannel s.params s.cfg.interp s.mem ch (s.chan ch)).chan).setRes
        (generateChannel s.params s.cfg.interp s.mem ch (s.chan ch)).res := by
  unfold execGenerateSample at h
  split_ifs at h with h1
  cases h
  exact ⟨by simpa using h1, rfl⟩

theorem execIncrementSample_next {ch : ChanId} {s t : State} (h : execIncrementSample ch s = .next t) :
    s.cfg.tablesReady = true ∧
      (((s.chan ch).state.pastStart = false ∧ t = s.setRes 0) ∨
        ((s.chan ch).state.pastStart = true ∧
          ∃ c, incrementChannel s.params s.mem (s.chan ch) = some c ∧ t = (s.setChan ch c).setRes 0)) := by
  unfold execIncrementSample at h
  split_ifs at h with h1 h2
  · cases h
    refine ⟨by simpa using h1, .inl ⟨?_, rfl⟩⟩
    rcases h2 with h2 | h2 <;> rw [h2] <;> rfl
  · split at h
    · cases h
    · rename_i c hc
      cases h
      refine ⟨by simpa using h1, .inr ⟨?_, c, hc, rfl⟩⟩
      push Not at h2
      generalize (s.chan ch).state = e at h2
      cases e <;> simp_all [EnvState.pastStart]

/-- Every command that completes has written only what its channel and the configuration commands may write. -/
theorem exec_next_written {i : Instr} {s t : State} (h : exec i s = .next t) : Written i s t := by
  cases i with
  | nop => cases h; exact .resOnly 0 rfl
  | initTables => cases h; exact .config _ 0 rfl rfl
  | setInterp mode => obtain ⟨m, _, rfl⟩ := execSetInterp_next h; exact .config _ 0 rfl rfl
  | setRate rate => obtain ⟨_, rfl⟩ := execSetRate_next h; exact .config _ 0 rfl rfl
  | triggerStart ch o => obtain ⟨_, _, rfl⟩ := execTriggerStart_next h; exact .channel ch _ 0 rfl rfl
  | noteParams ch o => obtain ⟨_, _, _, _, rfl⟩ := execNoteParams_next h; exact .channel ch _ 0 rfl rfl
  | release ch => obtain ⟨_, _, _, rfl⟩ := execRelease_next h; exact .channel ch _ 0 rfl rfl
  | kill ch => cases h; exact .channel ch _ 0 rfl rfl
  | trackUpdate ch f o =>
    obtain ⟨_, _, ⟨_, rfl⟩ | ⟨_, _, rfl⟩⟩ := execTrackUpdate_next h
    · exact .resOnly 0 rfl
    · exact .channel ch _ 0 rfl rfl
  | update ch =>
    obtain ⟨_, ⟨_, rfl⟩ | ⟨_, _, c, _, rfl⟩⟩ := execUpdate_next h
    · exact .resOnly 0 rfl
    · exact .channel ch _ 0 rfl rfl
  | generateSample ch => obtain ⟨_, rfl⟩ := execGenerateSample_next h; exact .channel ch _ _ rfl rfl
  | incrementSample ch =>
    obtain ⟨_, ⟨_, rfl⟩ | ⟨_, c, _, rfl⟩⟩ := execIncrementSample_next h
    · exact .resOnly 0 rfl
    · exact .channel ch _ 0 rfl rfl
  | read ch sel => obtain ⟨r, _, rfl⟩ := execRead_next h; exact .resOnly r rfl

/-- Running a list that ends in one command is running the list and then the command. -/
theorem runCommands_snoc (is : List Instr) (i : Instr) (s : State) :
    runCommands (is ++ [i]) s =
      match runCommands is s with
      | .next t => exec i t
      | .fault r => .fault r
      | .refused r => .refused r := by
  induction is generalizing s with
  | nil => simp only [List.nil_append, runCommands]; cases exec i s <;> rfl
  | cons j rest ih =>
    simp only [List.cons_append, runCommands]
    cases exec j s with
    | next t => exact ih t
    | fault r => rfl
    | refused r => rfl

/-- A step that completes either had no command to run, or ran the command it decoded (R80). -/
theorem step_next_cases {s t : State} (h : step s = .next t) :
    (s.commands = [] ∧ t = s) ∨
      ∃ x rest i, s.commands = x :: rest ∧ decode x = .ok i ∧ exec i { s with commands := rest } = .next t := by
  unfold step fetch at h
  cases hc : s.commands with
  | nil => simp [hc] at h; exact .inl ⟨rfl, h.symm⟩
  | cons x rest =>
    simp only [hc] at h
    cases hd : decode x with
    | error e => simp [hd] at h
    | ok i =>
      simp only [hd] at h
      exact .inr ⟨x, rest, i, rfl, hd, h⟩

end Sys2Proof.Machine
end

