-- ==== Sys2Proof/Laws/Memory.lean ====
section
/-! SUPPORT. Sample memory: the canonical form and the read-after-place laws (R61, R65; log 6). -/

namespace Sys2Proof.Machine

/-- The reset state's memory is in canonical form. -/
theorem resetWith_mem_wf (p : Params) : Memory.wf (State.resetWith p).mem = true := rfl

/-- Every handle of a memory lies above `lo`. -/
def handlesAbove (lo : Nat) (m : SampleMemory) : Prop := ∀ b ∈ m, lo < b.handle.toNat

theorem wf_cons_iff (b : Buffer) (m : SampleMemory) :
    Memory.wf (b :: m) = true ↔ b.samples ≠ [] ∧ handlesAbove b.handle.toNat m ∧ Memory.wf m = true := by
  induction m generalizing b with
  | nil => simp [Memory.wf, handlesAbove]
  | cons c rest ih =>
    constructor
    · intro h
      simp only [Memory.wf, Bool.and_eq_true, decide_eq_true_eq] at h
      obtain ⟨⟨h1, h2⟩, h3⟩ := h
      refine ⟨by simpa using h1, ?_, h3⟩
      intro x hx
      rcases List.mem_cons.mp hx with rfl | hx
      · exact h2
      · exact lt_trans h2 (((ih c).mp h3).2.1 x hx)
    · rintro ⟨h1, h2, h3⟩
      have : ¬ b.samples.isEmpty = true := by simpa using h1
      simp only [Memory.wf, Bool.and_eq_true, decide_eq_true_eq]
      exact ⟨⟨by simpa using h1, h2 c (by simp)⟩, h3⟩

theorem handlesAbove_placeBuffer {lo : Nat} {m : SampleMemory} {src : Handle} {xs : List Sample}
    (h : handlesAbove lo m) (hs : lo < src.toNat) : handlesAbove lo (placeBuffer m src xs) := by
  induction m with
  | nil =>
    intro b hb
    unfold placeBuffer at hb
    split at hb
    · simp at hb
    · simp at hb; subst hb; exact hs
  | cons c rest ih =>
    have hr : handlesAbove lo rest := fun b hb => h b (by simp [hb])
    have hc : lo < c.handle.toNat := h c (by simp)
    intro b hb
    unfold placeBuffer at hb
    split at hb
    · rcases List.mem_cons.mp hb with rfl | hb
      · exact hc
      · exact ih hr b hb
    · have tailAbove : ∀ x ∈ (if c.handle = src then rest else c :: rest), lo < x.handle.toNat := by
        intro x hx
        split at hx
        · exact hr x hx
        · exact h x hx
      simp only at hb
      split at hb
      · exact tailAbove b hb
      · rcases List.mem_cons.mp hb with rfl | hb
        · exact hs
        · exact tailAbove b hb

/-- Placing a buffer keeps the canonical form. -/
theorem placeBuffer_wf {m : SampleMemory} (src : Handle) (xs : List Sample) (h : Memory.wf m = true) :
    Memory.wf (placeBuffer m src xs) = true := by
  induction m with
  | nil =>
    unfold placeBuffer
    split
    · rfl
    · simpa [Memory.wf] using ‹¬ xs = []›
  | cons c rest ih =>
    obtain ⟨h1, h2, h3⟩ := (wf_cons_iff c rest).mp h
    unfold placeBuffer
    split
    · rename_i hlt
      exact (wf_cons_iff _ _).mpr ⟨h1, handlesAbove_placeBuffer h2 hlt, ih h3⟩
    · rename_i hge
      have tailWf : Memory.wf (if c.handle = src then rest else c :: rest) = true := by
        split <;> assumption
      simp only
      split
      · exact tailWf
      · rename_i hne
        refine (wf_cons_iff _ _).mpr ⟨hne, ?_, tailWf⟩
        split
        · rename_i he
          intro b hb
          have := h2 b hb
          rw [he] at this
          exact this
        · rename_i he
          have hlt : src.toNat < c.handle.toNat := by
            have : c.handle.toNat ≠ src.toNat := fun e => he (BitVec.eq_of_toNat_eq e)
            omega
          intro b hb
          rcases List.mem_cons.mp hb with rfl | hb
          · exact hlt
          · exact lt_trans hlt (h2 b hb)

theorem bufferOf_of_handlesAbove {m : SampleMemory} {src : Handle} (h : handlesAbove src.toNat m) :
    bufferOf m src = [] := by
  induction m with
  | nil => rfl
  | cons c rest ih =>
    have hc : src.toNat < c.handle.toNat := h c (by simp)
    have hne : c.handle ≠ src := fun e => by rw [e] at hc; exact lt_irrefl _ hc
    simp only [bufferOf, if_neg hne]
    exact ih fun b hb => h b (by simp [hb])

/-- The buffer just placed is the one its handle names. -/
theorem bufferOf_placeBuffer_same {m : SampleMemory} (src : Handle) (xs : List Sample) (h : Memory.wf m = true) :
    bufferOf (placeBuffer m src xs) src = xs := by
  induction m with
  | nil =>
    unfold placeBuffer
    split
    · simp_all [bufferOf]
    · simp [bufferOf]
  | cons c rest ih =>
    obtain ⟨_, h2, h3⟩ := (wf_cons_iff c rest).mp h
    unfold placeBuffer
    split
    · rename_i hlt
      have hne : c.handle ≠ src := fun e => by rw [e] at hlt; exact lt_irrefl _ hlt
      simp [bufferOf, hne, ih h3]
    · rename_i hge
      simp only
      split
      · rename_i he
        subst he
        split
        · rename_i hc
          rw [← hc]
          exact bufferOf_of_handlesAbove h2
        · rename_i hc
          have hlt : src.toNat < c.handle.toNat := by
            have : c.handle.toNat ≠ src.toNat := fun e => hc (BitVec.eq_of_toNat_eq e)
            omega
          refine bufferOf_of_handlesAbove ?_
          intro b hb
          rcases List.mem_cons.mp hb with rfl | hb
          · exact hlt
          · exact lt_trans hlt (h2 b hb)
      · simp [bufferOf]

/-- Placing a buffer leaves every other handle's buffer alone. -/
theorem bufferOf_placeBuffer_ne (m : SampleMemory) {src other : Handle} (xs : List Sample) (h : other ≠ src) :
    bufferOf (placeBuffer m src xs) other = bufferOf m other := by
  induction m with
  | nil =>
    unfold placeBuffer
    split
    · rfl
    · simp [bufferOf, h.symm]
  | cons c rest ih =>
    unfold placeBuffer
    split
    · simp only [bufferOf, ih]
    · simp only
      have tailEq : bufferOf (if c.handle = src then rest else c :: rest) other = bufferOf (c :: rest) other := by
        split
        · rename_i he
          simp [bufferOf, he, h.symm]
        · rfl
      split
      · exact tailEq
      · simpa [bufferOf, h.symm] using tailEq

/-- `SampleRead` inside a buffer the host placed is the element at that index (R61). -/
theorem sampleRead_placeBuffer_same {m : SampleMemory} (src : Handle) (xs : List Sample) (h : Memory.wf m = true)
    {i : Nat} (hi : i < xs.length) : sampleRead (placeBuffer m src xs) src i = xs[i] := by
  simp [sampleRead, bufferOf_placeBuffer_same src xs h, hi]

end Sys2Proof.Machine
end

