-- ==== Sys2Proof/Laws/PerInstr.lean ====
section
/-! SUPPORT. Family EncodeMatches: the command word the encoder writes matches exactly one row of the opcode table, the
instruction's own (R82, R83, R89), one lemma per constructor. -/

namespace Sys2Proof.Laws.EncodeMatches

/-- The mnemonic of an instruction's row. -/
def mnemonic : Instr → String
  | .nop => "NOP"
  | .initTables => "INIT_TABLES"
  | .setInterp _ => "SET_INTERP"
  | .setRate _ => "SET_RATE"
  | .triggerStart _ _ => "TRIGGER_START"
  | .noteParams _ _ => "NOTE_PARAMS"
  | .release _ => "RELEASE"
  | .kill _ => "KILL"
  | .trackUpdate _ _ _ => "TRACK_UPDATE"
  | .update _ => "UPDATE"
  | .generateSample _ => "GENERATE_SAMPLE"
  | .incrementSample _ => "INCREMENT_SAMPLE"
  | .read _ _ => "READ"

/-- The rows that match the encoded command word are the instruction's row alone. -/
def Statement (i : Instr) : Prop :=
  (opcodeTable.filter fun r => r.matches (encode i).cmd).map OpcodeRow.mnemonic = [mnemonic i]

theorem nop : Statement .nop := by unfold Statement; decide
theorem initTables : Statement .initTables := by unfold Statement; decide
theorem setInterp (mode : BitVec 3) : Statement (.setInterp mode) := by
  unfold Statement; revert mode; decide
theorem setRate (rate : BitVec 32) : Statement (.setRate rate) := by
  unfold Statement; simp only [encode, mnemonic]; decide
theorem triggerStart (ch : ChanId) (ops : TriggerOps) : Statement (.triggerStart ch ops) := by
  unfold Statement; simp only [encode, mnemonic]; revert ch; decide
theorem noteParams (ch : ChanId) (ops : NoteOps) : Statement (.noteParams ch ops) := by
  unfold Statement; simp only [encode, mnemonic]; revert ch; decide
theorem release (ch : ChanId) : Statement (.release ch) := by unfold Statement; revert ch; decide
theorem kill (ch : ChanId) : Statement (.kill ch) := by unfold Statement; revert ch; decide
theorem trackUpdate (ch : ChanId) (flags : BitVec 5) (ops : TrackOps) : Statement (.trackUpdate ch flags ops) := by
  unfold Statement; simp only [encode, mnemonic]; revert ch flags; decide +kernel
theorem update (ch : ChanId) : Statement (.update ch) := by unfold Statement; revert ch; decide
theorem generateSample (ch : ChanId) : Statement (.generateSample ch) := by unfold Statement; revert ch; decide
theorem incrementSample (ch : ChanId) : Statement (.incrementSample ch) := by unfold Statement; revert ch; decide
theorem read (ch : ChanId) (sel : BitVec 4) : Statement (.read ch sel) := by
  unfold Statement; revert ch sel; decide +kernel

end Sys2Proof.Laws.EncodeMatches
end

