-- ==== Sys2Proof/Laws/Ring.lean ====
section
/-! SUPPORT. The ring buffer: pushing, the first fill, and the window as a slice of the feed sequence (R195 to R198). -/

namespace Sys2Proof.Machine

/-- The window of `r` is the feed sequence around the unwrapped position `U`, and the next push reads the sample
after the look-ahead (R198). -/
structure TracksFeed (p : Params) (m : SampleMemory) (g : SoundRegister) (U : Int) (r : Ring) : Prop where
  size : r.win.length = 2 * p.half + 1
  fill : r.fillPos = feedIndex g (U + p.half + 1)
  win  : ∀ k : Int, -(p.half : Int) ≤ k → k ≤ p.half → winAt p r.win k = feed m g (U + k)

/-- The fill position walks the feed indices (R197). -/
theorem nextFill_feedIndex {g : SoundRegister} (ht : 0 < g.totalLength) (hs : g.totalLength = g.loopStart + g.length)
    (hl : g.repeatMode = .loop → 0 < g.length) {j : Int} (hj : 0 ≤ j) :
    nextFill g (feedIndex g j) = feedIndex g (j + 1) := by
  have hj1 : ¬ j < 0 := by omega
  have hj2 : ¬ j + 1 < 0 := by omega
  by_cases hlt : j < (g.totalLength : Int)
  · have e1 : feedIndex g j = j.toNat := by simp only [feedIndex]; rw [if_neg hj1, if_pos hlt]
    rw [e1]
    by_cases hlt' : j + 1 < (g.totalLength : Int)
    · have e2 : feedIndex g (j + 1) = (j + 1).toNat := by simp only [feedIndex]; rw [if_neg hj2, if_pos hlt']
      rw [e2, nextFill, if_neg (by omega)]
      omega
    · have hjt : j + 1 = (g.totalLength : Int) := by omega
      rw [nextFill, if_pos (by omega)]
      simp only [feedIndex]
      rw [if_neg hj2, if_neg hlt']
      by_cases hloop : g.repeatMode = .loop
      · rw [if_pos hloop, if_pos hloop]
        have : j + 1 - (g.loopStart : Int) = (g.length : Int) := by rw [hjt, hs]; push_cast; ring
        rw [this, Int.emod_self]
        simp
      · rw [if_neg hloop, if_neg hloop]
        omega
  · have hlt' : ¬ j + 1 < (g.totalLength : Int) := by omega
    by_cases hloop : g.repeatMode = .loop
    · have hpos : (0 : Int) < (g.length : Int) := by exact_mod_cast hl hloop
      have e1 : feedIndex g j = g.loopStart + ((j - g.loopStart) % (g.length : Int)).toNat := by
        simp only [feedIndex]; rw [if_neg hj1, if_neg hlt, if_pos hloop]
      have e2 : feedIndex g (j + 1) = g.loopStart + ((j + 1 - g.loopStart) % (g.length : Int)).toNat := by
        simp only [feedIndex]; rw [if_neg hj2, if_neg hlt', if_pos hloop]
      have hr0 := Int.emod_nonneg (j - g.loopStart) hpos.ne'
      have hr1 := Int.emod_lt_of_pos (j - g.loopStart) hpos
      have hstep : (j + 1 - (g.loopStart : Int)) % (g.length : Int)
          = ((j - g.loopStart) % (g.length : Int) + 1) % (g.length : Int) := by
        rw [Int.emod_add_emod]; congr 1; ring
      rw [e1, e2, hstep]
      generalize (j - (g.loopStart : Int)) % (g.length : Int) = r at hr0 hr1
      rw [nextFill]
      by_cases hw : r + 1 = (g.length : Int)
      · rw [hw, Int.emod_self, if_pos (by omega), if_pos hloop]
        simp
      · rw [Int.emod_eq_of_lt (by omega) (by omega), if_neg (by omega)]
        omega
    · have e1 : feedIndex g j = g.totalLength - 1 := by
        simp only [feedIndex]; rw [if_neg hj1, if_neg hlt, if_neg hloop]
      have e2 : feedIndex g (j + 1) = g.totalLength - 1 := by
        simp only [feedIndex]; rw [if_neg hj2, if_neg hlt', if_neg hloop]
      rw [e1, e2, nextFill, if_pos (by omega), if_neg hloop]

/-- One push moves the window one sample along the feed sequence (R197). -/
theorem tracksFeed_push {p : Params} {m : SampleMemory} {g : SoundRegister} (ht : 0 < g.totalLength)
    (hs : g.totalLength = g.loopStart + g.length) (hl : g.repeatMode = .loop → 0 < g.length) {U : Int} {r : Ring}
    (hU : 0 ≤ U + p.half + 1) (h : TracksFeed p m g U r) : TracksFeed p m g (U + 1) (ringPushNext m g r) := by
  have hsize := h.size
  have hlen : (r.win.tail ++ [sampleRead m g.source r.fillPos]).length = 2 * p.half + 1 := by
    simp [hsize]
  refine ⟨hlen, ?_, ?_⟩
  · show nextFill g r.fillPos = _
    rw [h.fill, nextFill_feedIndex ht hs hl hU]
    congr 1; ring
  · intro k hk1 hk2
    have hk0 : 0 ≤ k + (p.half : Int) := by omega
    show winAt p (r.win.tail ++ [sampleRead m g.source r.fillPos]) k = _
    simp only [winAt, if_pos hk0]
    by_cases hk : k = (p.half : Int)
    · subst hk
      have : ((p.half : Int) + p.half).toNat = r.win.tail.length := by simp [hsize]; omega
      rw [this, List.getElem?_concat_length]
      simp only [Option.getD_some, feed]
      rw [h.fill]
      congr 2; ring
    · have hlt : (k + (p.half : Int)).toNat < r.win.tail.length := by simp [hsize]; omega
      rw [List.getElem?_append_left hlt, List.getElem?_tail]
      have hw := h.win (k + 1) (by omega) (by omega)
      have hk1' : 0 ≤ k + 1 + (p.half : Int) := by omega
      simp only [winAt, if_pos hk1'] at hw
      have e : (k + (p.half : Int)).toNat + 1 = (k + 1 + (p.half : Int)).toNat := by omega
      have hsome : (k + 1 + (p.half : Int)).toNat < r.win.length := by rw [hsize]; omega
      rw [e, List.getElem?_eq_getElem hsome] at *
      simp only [Option.getD_some] at hw ⊢
      rw [hw]
      congr 1; ring

/-- `n` pushes move the window `n` samples along (R194: "exactly the integer delta"). -/
theorem tracksFeed_pushMany {p : Params} {m : SampleMemory} {g : SoundRegister} (ht : 0 < g.totalLength)
    (hs : g.totalLength = g.loopStart + g.length) (hl : g.repeatMode = .loop → 0 < g.length) (n : Nat) {U : Int}
    {r : Ring} (hU : 0 ≤ U + p.half + 1) (h : TracksFeed p m g U r) :
    TracksFeed p m g (U + n) (ringPushMany m g n r) := by
  induction n generalizing U r with
  | zero => simpa [ringPushMany] using h
  | succ k ih =>
    have := ih (by omega) (tracksFeed_push ht hs hl hU h)
    simp only [ringPushMany]
    convert this using 1
    push_cast; ring

/-- The first fill puts the window at integer position 0 (R196). -/
theorem tracksFeed_ringStart (p : Params) (m : SampleMemory) {g : SoundRegister} (ht : 0 < g.totalLength)
    (hs : g.totalLength = g.loopStart + g.length) (hl : g.repeatMode = .loop → 0 < g.length) :
    TracksFeed p m g 0 (ringStart p m g) := by
  have base : TracksFeed p m g (-((p.half : Int) + 1))
      ⟨List.replicate (2 * p.half + 1) (sampleRead m g.source 0), 0, false⟩ := by
    refine ⟨by simp, ?_, ?_⟩
    · have : -((p.half : Int) + 1) + p.half + 1 = 0 := by ring
      rw [this, feedIndex, if_neg (by omega)]
      simp [ht]
    · intro k hk1 hk2
      have hk0 : 0 ≤ k + (p.half : Int) := by omega
      have hlt : (k + (p.half : Int)).toNat < 2 * p.half + 1 := by omega
      simp only [winAt, if_pos hk0, List.getElem?_replicate, if_pos hlt, Option.getD_some, feed]
      rw [feedIndex, if_pos (by omega)]
  have h := tracksFeed_pushMany ht hs hl (p.half + 1) (by omega) base
  have e : -((p.half : Int) + 1) + ((p.half + 1 : Nat) : Int) = 0 := by push_cast; ring
  rw [e] at h
  exact ⟨h.size, h.fill, h.win⟩

/-- Pushing never touches the validity bit. -/
theorem ringPushMany_ringValid (m : SampleMemory) (g : SoundRegister) (n : Nat) (r : Ring) :
    (ringPushMany m g n r).ringValid = r.ringValid := by
  induction n generalizing r with
  | zero => rfl
  | succ k ih => simp [ringPushMany, ih, ringPushNext]

/-- The first fill leaves the ring valid (R196). -/
theorem ringStart_ringValid (p : Params) (m : SampleMemory) (g : SoundRegister) :
    (ringStart p m g).ringValid = true := rfl

/-- One push is R197's words (`slideIn`). -/
theorem ringPushNext_eq_slideIn (m : SampleMemory) (g : SoundRegister) (r : Ring) :
    ringPushNext m g r = slideIn m g r := by
  simp only [ringPushNext, slideIn, nextFill, List.drop_one]
  by_cases h : r.fillPos + 1 < g.totalLength
  · rw [if_neg (by omega), if_pos h]
  · rw [if_pos (by omega), if_neg h]

/-- `n` pushes are `n` times R197's push. -/
theorem ringPushMany_eq_iterate (m : SampleMemory) (g : SoundRegister) (n : Nat) (r : Ring) :
    ringPushMany m g n r = (slideIn m g)^[n] r := by
  induction n generalizing r with
  | zero => rfl
  | succ k ih => simp only [ringPushMany, ih, ringPushNext_eq_slideIn, Function.iterate_succ_apply]

/-- A push carries the validity bit along. -/
theorem slideIn_iterate_valid (m : SampleMemory) (g : SoundRegister) (b : Bool) (n : Nat) (r : Ring) :
    (slideIn m g)^[n] { r with ringValid := b } = { (slideIn m g)^[n] r with ringValid := b } := by
  induction n generalizing r with
  | zero => rfl
  | succ k ih => rw [Function.iterate_succ_apply, Function.iterate_succ_apply, ← ih]; rfl

/-- The first fill is HALF + 1 pushes onto copies of sample 0 (R196). -/
theorem ringStart_eq_iterate (p : Params) (m : SampleMemory) (g : SoundRegister) :
    ringStart p m g = (slideIn m g)^[p.half + 1] (copiesOfFirst p m g) := by
  unfold ringStart copiesOfFirst
  simp only [ringPushMany_eq_iterate]
  rw [← slideIn_iterate_valid]

/-- The ring operations read only the buffer, the loop and the lengths of the register. -/
theorem ringPushMany_congr (m : SampleMemory) {g g' : SoundRegister} (h1 : g'.source = g.source)
    (h2 : g'.totalLength = g.totalLength) (h3 : g'.repeatMode = g.repeatMode) (h4 : g'.loopStart = g.loopStart)
    (n : Nat) (r : Ring) : ringPushMany m g' n r = ringPushMany m g n r := by
  induction n generalizing r with
  | zero => rfl
  | succ k ih => simp [ringPushMany, ih, ringPushNext, nextFill, h1, h2, h3, h4]

/-- The loop wrap is the least number of subtractions that brings the position below the total length, and leaves it
within one loop length below it (R199). -/
theorem wrapCount_lands {pos : Rat} {length total : Nat} (hl : 0 < length) (h : (total : Rat) ≤ pos) :
    (total : Rat) - length ≤ pos - (wrapCount pos length total : Rat) * length ∧
      pos - (wrapCount pos length total : Rat) * length < total ∧
      ∀ k : Nat, k < wrapCount pos length total → (total : Rat) ≤ pos - (k : Rat) * length := by
  have hlq : (0 : Rat) < length := by exact_mod_cast hl
  have hq : 0 ≤ (pos - total) / (length : Rat) := div_nonneg (by linarith) hlq.le
  have h0 := ratFloor_nonneg hq
  have h1 := ratFloor_le ((pos - total) / (length : Rat))
  have h2 := lt_ratFloor_add_one ((pos - total) / (length : Rat))
  rw [le_div_iff₀ hlq] at h1
  rw [div_lt_iff₀ hlq] at h2
  unfold wrapCount
  generalize ratFloor ((pos - total) / (length : Rat)) = f at h0 h1 h2
  obtain ⟨n, rfl⟩ := Int.eq_ofNat_of_zero_le h0
  simp only [Int.toNat_natCast] at *
  push_cast at *
  refine ⟨by linarith, by linarith, ?_⟩
  intro k hk
  have hk' : (k : Rat) ≤ n := by exact_mod_cast Nat.lt_succ_iff.mp hk
  have := mul_le_mul_of_nonneg_right hk' hlq.le
  linarith

end Sys2Proof.Machine
end

