-- ==== Sys2Proof/Laws/Tables.lean ====
section
/-! SUPPORT. The hardware tables: what the required properties of R226 and the widths of R163 say of their entries. -/

namespace Sys2Proof.Machine

/-- "Required properties: `SINC_LUT[0] = 1`" (R226). -/
theorem sincEntry_zero {p : Params} (hp : p.Valid) : sincEntry p 0 = 1 := by simp [sincEntry, hp.sinc_zero]

/-- "Required properties: ... `WINDOW_LUT[0] = 1`" (R226). -/
theorem windowEntry_zero {p : Params} (hp : p.Valid) : windowEntry p 0 = 1 := by simp [windowEntry, hp.window_zero]

/-- SINE stays within its 7-bit amplitude, listed or open (R163). -/
theorem sine_bounds (p : Params) (i : Nat) : -127 ≤ sine p i ∧ sine p i ≤ 127 := by
  have b := fun k => (sineEntry p k).isLt
  have h1 := b i
  have h2 := b (64 - i)
  have h3 := b (i - 64)
  have h4 := b (128 - i)
  unfold sine
  split_ifs <;> omega

end Sys2Proof.Machine
end

