-- ==== Sys2Proof/Laws/Tick.lean ====
section
/-! SUPPORT. UPDATE and TRACK_UPDATE taken apart once: the shape of a tick the channel survives, what the envelope step
keeps, what the modulation step yields, and what the length part leaves alone. -/

namespace Sys2Proof.Machine

/-- An UPDATE that leaves the channel alive ran the envelope step and then the cascade (R140). -/
theorem execUpdate_alive {ch : ChanId} {s t : State} (h : execUpdate ch s = .next t) (ht : (t.chan ch).state ≠ .none) :
    ∃ c, envelopeStep s.params (s.chan ch) = some c ∧ c.state ≠ .none ∧ (s.chan ch).state ≠ .none ∧
      s.cfg.sampleRate ≠ 0 ∧ t = (s.setChan ch (recomputeCascade s.params s.cfg.sampleRate (s.chan ch).state
        (sweepActive (s.chan ch).sweep) c)).setRes 0 := by
  obtain ⟨_, ⟨h1, rfl⟩ | ⟨h1, h2, c, hc, rfl⟩⟩ := execUpdate_next h
  · simp [h1] at ht
  · simp at ht
    unfold tickChannel at hc
    split_ifs at hc with h3
    · cases hc; simp at ht
    · split at hc
      · cases hc
      · rename_i d hd
        split_ifs at hc with h4
        · cases hc; exact absurd h4 ht
        · cases hc; exact ⟨d, hd, h4, h1, h2, rfl⟩

/-- What the envelope step never writes, and what it writes only in Start (R142 to R146). -/
theorem envelopeStep_keeps {p : Params} {c d : Channel} (h : envelopeStep p c = some d) (hd : d.state ≠ .none) :
    d.trackId = c.trackId ∧ d.prio = c.prio ∧ d.pend = c.pend ∧ d.noteLength = c.noteLength ∧ d.sweep = c.sweep ∧
      d.mod = c.mod ∧ d.flags = c.flags ∧ d.vol = c.vol ∧ d.env = { c.env with ampl := d.env.ampl } ∧
      d.note = { c.note with baseTimer := if c.state = .start then c.pend.timer else c.note.baseTimer } ∧
      (c.state ≠ .start → d.reg = c.reg ∧ d.ring = c.ring) := by
  unfold envelopeStep at h
  split at h <;> rename_i hs
  · cases h; simp_all
  · unfold attackStep at h; split at h
    · cases h
    · cases h; split <;> simp [startAction, hs]
  · unfold attackStep at h; split at h
    · cases h
    · cases h; split <;> simp [hs]
  · cases h; rcases decayStep_cases p c with ⟨_, e⟩ | ⟨_, e⟩ <;> rw [e] <;> simp [hs]
  · cases h; simp [hs]
  · cases h; rcases releaseStep_cases p c with ⟨_, e⟩ | ⟨_, e⟩ <;> rw [e] at hd ⊢ <;> simp [hs] at hd ⊢

/-- The modulation step keeps the target, is active exactly when R161 says, and contributes ModParam then. -/
theorem modulationStep_yields (p : Params) (m : Modulation) :
    (modulationStep p m).regs.modType = m.modType ∧
      ((modulationStep p m).active = true ↔ m.modDepth ≠ 0 ∧ m.modDelay.toNat ≤ m.modDelayCnt) ∧
      ((modulationStep p m).active = true → (modulationStep p m).param = modParam p m) := by
  unfold modulationStep; split_ifs <;> simp_all

/-- The sweep activity test as a proposition (R160). -/
theorem sweepActive_iff (w : Sweep) :
    sweepActive w = true ↔ w.sweepPitch ≠ 0 ∧ w.sweepLen ≠ 0 ∧ (w.sweepCnt : Int) ≤ w.sweepLen := by
  simp [sweepActive]

/-- The cascade advances the modulation registers by the modulation step alone (R161, R164). -/
theorem recomputeCascade_mod (p : Params) (rate : BitVec 32) (e : EnvState) (w : Bool) (c : Channel) :
    (recomputeCascade p rate e w c).mod = (modulationStep p c.mod).regs := by
  simp only [recomputeCascade]; split_ifs <;> simp

/-- The cascade never changes the state (R147). -/
theorem recomputeCascade_state (p : Params) (rate : BitVec 32) (e : EnvState) (w : Bool) (c : Channel) :
    (recomputeCascade p rate e w c).state = c.state := by
  simp only [recomputeCascade]; split_ifs <;> simp

/-- The cascade never changes the envelope registers (R173). -/
theorem recomputeCascade_env (p : Params) (rate : BitVec 32) (e : EnvState) (w : Bool) (c : Channel) :
    (recomputeCascade p rate e w c).env = c.env := by
  simp only [recomputeCascade]; split_ifs <;> simp

/-- The length part touches only state, priority, length and the sweep counter (R131). -/
theorem lengthPart_keeps (c : Channel) :
    (lengthPart c).note = c.note ∧ (lengthPart c).mod = c.mod ∧ (lengthPart c).flags = c.flags ∧
      (lengthPart c).reg = c.reg ∧ (lengthPart c).vol = c.vol ∧ (lengthPart c).env = c.env ∧
      (lengthPart c).ring = c.ring ∧ (lengthPart c).pend = c.pend ∧ (lengthPart c).trackId = c.trackId := by
  unfold lengthPart advanceManualSweep countNote; split_ifs <;> simp

/-- State, priority, length and sweep after TRACK_UPDATE's parts are those of the length part (R131 to R135). -/
theorem trackParts_length (f : BitVec 5) (o : TrackOps) (t : Option ModType) (c : Channel) :
    (trackParts f o t c).state = (if f.getLsbD 0 then lengthPart c else c).state ∧
      (trackParts f o t c).prio = (if f.getLsbD 0 then lengthPart c else c).prio ∧
      (trackParts f o t c).noteLength = (if f.getLsbD 0 then lengthPart c else c).noteLength ∧
      (trackParts f o t c).sweep = (if f.getLsbD 0 then lengthPart c else c).sweep := by
  unfold trackParts; dsimp only; split <;> split_ifs <;> simp

end Sys2Proof.Machine
end

