-- ==== Sys2Proof/Tests/Slice0.lean ====
section
/-! SUPPORT. The model's own tests. Expected values are the spec's: its examples in the rules and the vectors of
spec/95_test_vectors.md, named at each test. The second half holds one witness per statement: concrete states and
operands that meet the statement's hypotheses. -/

namespace Sys2Proof.Tests

/-! The many small kernel evaluations below run one after another, so that the compile needs few threads. -/

set_option Elab.async false

open Sys2Proof Sys2Proof.Machine

/-! ### Helpers -/

/-- The outcome is a next state. -/
def completes (o : Host.Outcome State Fault Refusal) : Bool :=
  match o with
  | .next _ => true
  | .fault _ => false
  | .refused _ => false

/-- The next state of an outcome, or `s` where there is none. -/
def nextOr (s : State) (o : Host.Outcome State Fault Refusal) : State :=
  match o with
  | .next t => t
  | .fault _ => s
  | .refused _ => s

/-- The refusal of an outcome. -/
def refusalOf (o : Host.Outcome State Fault Refusal) : Option Refusal :=
  match o with
  | .next _ => none
  | .fault _ => none
  | .refused r => some r

/-- The state a command leaves, or the state itself where it does not complete. -/
def after (i : Instr) (s : State) : State := nextOr s (exec i s)

theorem next_of_completes {o : Host.Outcome State Fault Refusal} (s : State) (h : completes o = true) :
    o = .next (nextOr s o) := by
  cases o with
  | next t => rfl
  | fault r => cases h
  | refused r => cases h

theorem exec_after {i : Instr} {s : State} (h : completes (exec i s) = true) : exec i s = .next (after i s) :=
  next_of_completes s h

theorem refused_of_refusalOf {o : Host.Outcome State Fault Refusal} {r : Refusal} (h : refusalOf o = some r) :
    o = .refused r := by
  cases o with
  | next t => cases h
  | fault e => cases h
  | refused q => cases h; rfl

/-- The reference parameters with the "given" entries of the vectors: VOL_TABLE[i] = min(127, floor(i/5)),
SUSTAIN_TABLE[64] = −15232 and 0 elsewhere. -/
def testParams : Params :=
  { referenceParams with
    volTable := (List.range 724).map fun i => BitVec.ofNat 7 (min 127 (i / 5))
    sustainTable := (List.range 128).map fun i => if i = 64 then -15232 else 0 }

/-- The parameters of T50, T51 and T63: SINC_WIDTH 2, SINC_RESOLUTION 2 and the small tables of T63. -/
def smallParams : Params :=
  { testParams with
    sincWidth := 2, sincResolution := 2, sincLut := [(0, 1), (1, 5 / 8), (2, 0), (3, -1 / 5), (4, 0)],
    windowLut := [(0, 1), (1, 3 / 4), (2, 5 / 16), (3, 1 / 16), (4, 0)] }

/-- Handle 1 holds the four samples of P1. -/
def testMemory : SampleMemory := placeBuffer [] 1 [100, 200, -100, -200]

/-- Reset, INIT_TABLES, SET_RATE 53881, with the buffer of P1 placed. -/
def ready : State := { State.resetWith testParams with cfg := ⟨.none, 53881, true⟩, mem := testMemory }

/-- The operands of command 4 of P1. -/
def p1Trigger : TriggerOps := ⟨0xA8000000, 1, 0x137, 0, 4, 0, 64, 0xFF, 1, 0x7F, 0xFFFF, 60, 60⟩

/-- P1 after command 4. -/
def triggered : State := after (.triggerStart 0 p1Trigger) ready

/-- A sounding PCM channel: P1's note in a given state, at a position, the window at sample 0. -/
def sounding (e : EnvState) (pos : Rat) : Channel :=
  { Channel.reset testParams with
    state := e, trackId := some 0, prio := 64
    reg := { SoundRegister.cleared with
      repeatMode := .loop, format := .pcm16, enable := true, source := 1, timer := 0xFEC9, samplePosition := pos,
      sampleIncrease := 1, length := 4, totalLength := 4 }
    env := ⟨-15232, 0xFF, 6000, 64, 30000⟩
    ring := ⟨[200, -100, -200, 100, 200, -100, -200, 100, 100, 200, -100, -200, 100, 200, -100, -200, 100], 1, true⟩ }

/-- `ready` with one channel replaced. -/
def withChannel (ch : ChanId) (c : Channel) : State := ready.setChan ch c

/-! ### WellFormed: one ill-formed term for each check -/

theorem test_wf_setInterp : (Instr.setInterp 5).wellFormed = false := by decide
theorem test_wf_trigger : (Instr.triggerStart 0 { p1Trigger with cr := 0xB8000000 }).wellFormed = false := by decide
theorem test_wf_trackUpdate :
    (Instr.trackUpdate 0 0b10000 ⟨0, 0, 0, 0, 0, 0, 0, 3, 0, 0, 0, 0⟩).wellFormed = false := by decide
theorem test_wf_read : (Instr.read 0 5).wellFormed = false := by decide
theorem test_wf_accepts : (Instr.triggerStart 0 p1Trigger).wellFormed = true ∧ (Instr.read 0 4).wellFormed = true ∧
    (Instr.trackUpdate 0 0b01111 ⟨0, 0, 0, 0, 0, 0, 0, 3, 0, 0, 0, 0⟩).wellFormed = true ∧
    (Instr.setInterp 4).wellFormed = true := by decide

/-! ### Decoding: words written out bit by bit from R81 and R83 -/

/-- Opcode 00000000. -/
theorem test_decode_nop : decodeTableWord 32 0b00000000000000000000000000000000 = some .nop := by decide +kernel
/-- Opcode 00000001. -/
theorem test_decode_initTables :
    decodeTableWord 32 0b00000001000000000000000000000000 = some .initTables := by decide +kernel
/-- Opcode 00000010, imm[2:0] = 3. -/
theorem test_decode_setInterp :
    decodeTableWord 32 0b00000010000000000000000000000011 = some (.setInterp 3) := by decide +kernel
/-- Opcode 00000011, OP[0] = 53881 (R243). -/
theorem test_decode_setRate :
    decode ⟨0b00000011000000000000000000000000, noOperands.set 0 0x0000D279⟩ = .ok (.setRate 53881) := by
  decide +kernel
/-- Opcode 00010000, channel 14; T4: OP[5] = 0x100 is track 0, OP[9] = 0xFFFFFFFF is sustain 0x7F. -/
theorem test_decode_triggerStart :
    decode ⟨0b00010000000011100000000000000000,
      #v[0xA8000000, 1, 0xFFFF0137, 2, 4, 0x100, 64, 0xFF, 1, 0xFFFFFFFF, 0xFFFF, 60, 61]⟩
      = .ok (.triggerStart 14 ⟨0xA8000000, 1, 0x137, 2, 4, 0, 64, 0xFF, 1, 0x7F, 0xFFFF, 60, 61⟩) := by decide +kernel
/-- Opcode 00010001, channel 15; T4: OP[1] = 0x0000FFF6 is −10, OP[0] = 0xFFFFFFFF is −1. -/
theorem test_decode_noteParams :
    decode ⟨0b00010001000011110000000000000000,
      #v[0xFFFFFFFF, 0x0000FFF6, 10, 1, 57, 8, 0xFF9C, 9, 9, 9, 9, 9, 9]⟩
      = .ok (.noteParams 15 ⟨0xFFFFFFFF, 0xFFF6, 10, true, 57, 8, 0xFF9C⟩) ∧
    signedOp 0xFFFFFFFF#32 = -1 ∧ signedOp 0xFFF6#16 = -10 := by decide +kernel
/-- Opcode 00010010, channel 7. -/
theorem test_decode_release :
    decodeTableWord 32 0b00010010000001110000000000000000 = some (.release 7) := by decide +kernel
/-- Opcode 00010011, channel 14. -/
theorem test_decode_kill : decodeTableWord 32 0b00010011000011100000000000000000 = some (.kill 14) := by decide +kernel
/-- Opcode 00100000, channel 3, imm[4:0] = 00011; T4: OP[5] = 0x80 is pitch bend −128. -/
theorem test_decode_trackUpdate :
    decode ⟨0b00100000000000110000000000000011,
      #v[0xFFFB, 0xFFFA, 0xFFF9, 0xFFF8, 0xFFC0, 0x80, 2, 5, 16, 10, 1, 0x10002, 0]⟩
      = .ok (.trackUpdate 3 0b00011 ⟨0xFFFB, 0xFFFA, 0xFFF9, 0xFFF8, 0xFFC0, 0x80, 2, 1, 16, 10, 1, 2⟩) ∧
    signedOp 0x80#8 = -128 := by decide +kernel
/-- Opcode 00100001, channel 8. -/
theorem test_decode_update :
    decodeTableWord 32 0b00100001000010000000000000000000 = some (.update 8) := by decide +kernel
/-- Opcode 00110000, channel 15. -/
theorem test_decode_generate :
    decodeTableWord 32 0b00110000000011110000000000000000 = some (.generateSample 15) := by decide +kernel
/-- Opcode 00110001, channel 1. -/
theorem test_decode_increment :
    decodeTableWord 32 0b00110001000000010000000000000000 = some (.incrementSample 1) := by decide +kernel
/-- Opcode 01000000, channel 9, imm[3:0] = 4. -/
theorem test_decode_read :
    decodeTableWord 32 0b01000000000010010000000000000100 = some (.read 9 4) := by decide +kernel
/-- T2: the words that are no command. -/
theorem test_decode_refused :
    ([0x04000000, 0xFF000000, 0x00100000, 0x01010000, 0x01000001, 0x02000008, 0x10000001, 0x20000020, 0x40000010] :
      List Nat).all (fun w => (decodeTableWord 32 w).isNone) = true := by decide +kernel
/-- T3: fields of the control word `0xA840207F`, and of `0xE2000000`. -/
theorem test_control_word :
    crVolumeMul 0xA840207F = 0x7F ∧ crVolumeDiv 0xA840207F = 0 ∧ crPanning 0xA840207F = 0x40 ∧
      crFormat 0xA8000000 = .pcm16 ∧ crRepeatMode 0xA8000000 = .loop ∧ crWaveDuty 0xE2000000 = 2 ∧
      crFormat 0xE2000000 = .psg ∧ crEnable 0x28000000 = false := by decide +kernel

/-! ### One step of each command -/

/-- R240: done, RES = 0. -/
theorem test_nop : (after .nop { ready with res := 7 }).res = 0 := by decide +kernel
/-- R241's example: UPDATE is refused before INIT_TABLES, accepted after it. -/
theorem test_initTables : refusalOf (exec (.update 0) State.reset) = some .tablesNotReady ∧
    completes (exec (.update 0) (after .initTables State.reset)) = true := by decide +kernel
/-- R242's examples: CMD 0x02000002 sets LAGRANGE4; 0x02000005 is refused. -/
theorem test_setInterp : (nextOr ready (step (ready.withFetchWord 32 0x02000002))).cfg.interp = .lagrange4 ∧
    refusalOf (step (ready.withFetchWord 32 0x02000005)) = some .reservedInterpMode := by decide +kernel
/-- R243, T71. -/
theorem test_setRate : (after (.setRate 53881) State.reset).cfg.sampleRate = 53881 ∧
    refusalOf (exec (.setRate 0) ready) = some .zeroSampleRate := by decide +kernel
/-- R110's example. -/
theorem test_triggerStart :
    let c := triggered.chan 0
    c.state = .start ∧ c.trackId = some 0 ∧ c.prio = 64 ∧ c.flags = ⟨true, true, true⟩ ∧
      c.reg = SoundRegister.cleared ∧ c.vol = 0 := by decide +kernel
/-- T72, T3: the refusals, and the one-shot and PSG forms that are accepted. -/
theorem test_triggerStart_checks :
    refusalOf (exec (.triggerStart 0 { p1Trigger with source := 0 }) ready) = some .nullSource ∧
      refusalOf (exec (.triggerStart 0 { p1Trigger with length := 0 }) ready) = some .zeroLengthSample ∧
      refusalOf (exec (.triggerStart 0 { p1Trigger with repeatPoint := 4, length := 0 }) ready) = some .zeroLengthLoop ∧
      refusalOf (exec (.triggerStart 0 { p1Trigger with trackId := 16 }) ready) = some .trackIdOutOfRange ∧
      refusalOf (exec (.triggerStart 0 { p1Trigger with cr := 0xB8000000 }) ready) = some .reservedRepeatMode ∧
      completes (exec (.triggerStart 0 { p1Trigger with cr := 0xB0000000, repeatPoint := 4, length := 0 }) ready) ∧
      completes (exec (.triggerStart 0 { p1Trigger with cr := 0xE0000000, source := 0, length := 0 }) ready) := by
  decide +kernel
/-- R111's example: portaKey 57, time 8 over key 60 gives sweepPitch −192, sweepLen 6. -/
theorem test_noteParams :
    let c := (after (.noteParams 0 ⟨3, 0, 0, true, 57, 8, 0⟩) triggered).chan 0
    c.noteLength = 3 ∧ c.sweep = ⟨6, 0, -192, false⟩ := by decide +kernel
/-- T71. -/
theorem test_noteParams_refused :
    refusalOf (exec (.noteParams 0 ⟨0, 0, 0, false, 0, 0, 0⟩) triggered) = some .reservedNoteLength ∧
      refusalOf (exec (.noteParams 0 ⟨-2, 0, 0, false, 0, 0, 0⟩) triggered) = some .reservedNoteLength ∧
      refusalOf (exec (.noteParams 0 ⟨3, 0, 0, false, 0, 0, 0⟩) ready) = some .noNote := by decide +kernel
/-- R113's example: Sustain at −15232 with priority 64. -/
theorem test_release :
    let c := (after (.release 7) (withChannel 7 (sounding .sustain 0))).chan 7
    c.state = .release ∧ c.prio = 1 ∧ c.noteLength = -1 ∧ c.env.ampl = -15232 := by decide +kernel
/-- T74. -/
theorem test_kill :
    let c := (after (.kill 14) (withChannel 14 { sounding .decay 1 with vol := 2032 })).chan 14
    c.state = .none ∧ c.trackId = none ∧ c.prio = 0 ∧ c.vol = 0 ∧ c.reg = SoundRegister.cleared ∧
      c.ring.ringValid = false := by decide +kernel
/-- R130's example: LEN|VOL with −5, −6, −7, −8 in Attack at length 2. -/
theorem test_trackUpdate :
    let c := (after (.trackUpdate 3 3 ⟨-5, -6, -7, -8, 0, 0, 0, 0, 0, 0, 0, 0⟩)
      (withChannel 3 { sounding .attack 0 with noteLength := 2 })).chan 3
    c.noteLength = 1 ∧ c.note.extAmpl = -26 ∧ c.flags = ⟨true, false, false⟩ ∧ c.vol = 0 := by decide +kernel
/-- T39, T38: extTune of (64, 60, 64, 12), and the flags of a type change from pan to volume. -/
theorem test_trackUpdate_tune_mod :
    let c := { sounding .attack 0 with note := ⟨0, 0, 0, 0, 0, 64, 60, 0⟩, mod := ⟨.pan, 0, 0, 0, 0, 0, 0⟩ }
    ((after (.trackUpdate 3 8 ⟨0, 0, 0, 0, 0, 64, 12, 0, 0, 0, 0, 0⟩) (withChannel 3 c)).chan 3).note.extTune = 640 ∧
      ((after (.trackUpdate 3 16 ⟨0, 0, 0, 0, 0, 0, 0, 1, 0, 0, 0, 0⟩) (withChannel 3 c)).chan 3).flags
        = ⟨true, true, false⟩ := by decide +kernel
/-- P1 after command 7. -/
theorem test_update_start :
    let c := (after (.update 0) triggered).chan 0
    c.state = .attack ∧ c.env.ampl = -92182 ∧ c.reg.timer = 0xFEC9 ∧ c.reg.sampleIncrease = 1 ∧
      c.reg.samplePosition = -3 ∧ c.reg.volumeDiv = 3 ∧ c.vol = 0 ∧ c.reg.panning = 64 ∧
      c.flags = ⟨false, false, false⟩ := by decide +kernel
/-- T25 tick 3: −12000 − 6000 is clamped to the sustain level; total 604, mul 120, div 1, vol 960. -/
theorem test_update_decay :
    let c := (after (.update 2) (withChannel 2 { sounding .decay 0 with env := ⟨-12000, 0, 6000, 64, 30000⟩ })).chan 2
    c.state = .sustain ∧ c.env.ampl = -15232 ∧ c.reg.volumeMul = 120 ∧ c.reg.volumeDiv = 1 ∧ c.vol = 960 := by
  decide +kernel
/-- T45: at integer position 3 from the seed, −32767 and psgX = 0x47FF. -/
theorem test_generate_noise :
    let g := { (sounding .sustain 3).reg with format := .psg, psgX := 0x7FFF }
    let t := after (.generateSample 14) (withChannel 14 { sounding .sustain 3 with reg := g })
    t.res = -32767 ∧ (t.chan 14).reg.psgX = 0x47FF ∧ (t.chan 14).reg.psgLastCount = 3 := by decide +kernel
/-- R190's example: interpolation NONE, position 1: 200; position −3: 0. -/
theorem test_generate_none :
    (after (.generateSample 0) (withChannel 0 (sounding .attack 1))).res = 200 ∧
      (after (.generateSample 0) (withChannel 0 (sounding .attack (-3)))).res = 0 := by decide +kernel
/-- R194's example: position 3, increment 1, loop of 4: wrapped to 0; one-shot: killed. -/
theorem test_increment :
    ((after (.incrementSample 0) (withChannel 0 (sounding .attack 3))).chan 0).reg.samplePosition = 0 ∧
      ((after (.incrementSample 0) (withChannel 0 { sounding .attack 3 with
        reg := { (sounding .attack 3).reg with repeatMode := .oneShot } })).chan 0).state = .none := by decide +kernel
/-- T50, second call: position 2 to 9/2 pushes 70 and 80. -/
theorem test_increment_pushes :
    let m := placeBuffer [] 1 [10, 20, 30, 40, 50, 60, 70, 80]
    let g := { (sounding .attack 2).reg with sampleIncrease := 5 / 2, loopStart := 2, length := 6, totalLength := 8 }
    (incrementChannel smallParams m
      { sounding .attack 2 with reg := g, ring := ⟨[10, 10, 20, 30, 40, 50, 60], 6, true⟩ }).map
        (fun c => (c.reg.samplePosition, c.ring)) = some (9 / 2, ⟨[20, 30, 40, 50, 60, 70, 80], 2, true⟩) := by
  decide +kernel
/-- R244's examples. -/
theorem test_read : (after (.read 9 3) (withChannel 9 { sounding .decay 0 with vol := 992 })).res = 992 ∧
    (after (.read 9 1) ready).res = 0xFFFFFFFF := by decide +kernel

/-- T60, T63 at f = 1/2: LINEAR, LAGRANGE4, LAGRANGE6, SINC at increments 1 and 2. -/
theorem test_kernels :
    let win : List Sample := [7, -300, 1200, 1000, -2000, 400, -50]
    kernelWord smallParams .linear win (1 / 2) 1 = -500 ∧ kernelWord smallParams .lagrange4 win (1 / 2) 1 = -662 ∧
      kernelWord smallParams .lagrange6 win (1 / 2) 1 = -746 ∧ kernelWord smallParams .sinc win (1 / 2) 1 = -535 ∧
      kernelWord smallParams .sinc win (1 / 2) 2 = -111 := by decide +kernel
/-- T10. -/
theorem test_timerAdjust :
    timerAdjust testParams 0x1000 64 = 0x0F1A ∧ timerAdjust testParams 0x1000 (-767) = 0x1FF8 ∧
      timerAdjust testParams 0x8000 (-2147483648) = 0xFFFF ∧ timerAdjust testParams 0 12345 = 0x10 := by decide +kernel
/-- T34. -/
theorem test_sine : [0, 1, 31, 32, 33, 63, 64, 65, 95, 96, 97, 127].map (sine testParams)
    = [0, 6, 127, 127, 127, 6, 0, -6, -127, -127, -127, -6] := by decide +kernel
/-- The table of R7, value by value, and the ranges its register types hold. -/
theorem test_literals : nCh = 16 ∧ (List.range 16).filter (fun n => isDutyId (BitVec.ofNat 4 n)) = [8, 9, 10, 11, 12, 13] ∧
    (List.range 16).filter (fun n => isNoiseId (BitVec.ofNat 4 n)) = [14, 15] ∧
    [0#2, 1#2, 2#2, 3#2].map divShift = [0, 1, 2, 4] ∧ panMax = 127 ∧ dutySteps = 8 ∧ attackScale = 256 ∧
    amplBits = 14 ∧ amplFrac = 7 ∧ octave = 768 ∧ pitchTableLen = 997 ∧ timerMin = 16 ∧ timerMax = 65535 ∧
    modStepShift = 6 ∧ modPeriod = 2 ^ 15 ∧ (modVolFactor, 2 ^ modVolShift) = (60, 16384) ∧ modPpShift = 8 ∧
    lfsrTap = 0x6000 ∧ (noiseLo, noiseHi) = (-32767, 32767) ∧ (l4First, l4Last, l6First, l6Last) = (-1, 2, -2, 3) ∧
    prioReleased = 1 ∧ noTrack = -1 ∧ lenInfinite = -1 ∧
    [BitVec.toNat (BitVec.allOnes 7 : VolMul), BitVec.toNat (BitVec.allOnes 2 : VolDiv),
      BitVec.toNat (BitVec.allOnes 7 : Pan), BitVec.toNat (BitVec.allOnes 3 : DutyIndex),
      BitVec.toNat (BitVec.allOnes 8 : AttackCoef), BitVec.toNat (BitVec.allOnes 7 : SustainParam)]
      = [127, 3, 127, 7, 255, 127] := by decide +kernel
/-- T36 tick 9 (speed 32, depth 127, range 1: phase 9 · 2048): SINE = −49, floor(−22.79) = −23; T37 tick 6 (speed 64,
depth 64, range 2): −64. -/
theorem test_modParam : modParam testParams ⟨.volume, 32, 127, 1, 0, 0, 18432⟩ = -23 ∧
    modParam testParams ⟨.pan, 64, 64, 2, 0, 0, 24576⟩ = -64 := by decide +kernel
/-- R226: the required entries, the sinc's zeros and the window's end in the reference tables. -/
theorem test_sinc_tables : sincEntry State.reset.params 0 = 1 ∧ windowEntry State.reset.params 0 = 1 ∧
    sincEntry State.reset.params 8192 = 0 ∧ sincEntry State.reset.params 65536 = 0 ∧
    windowEntry State.reset.params 65536 = 0 := by decide +kernel
/-- T21: the last attack tick at coefficient 128 goes from −90 to 0. -/
theorem test_attackLoop : attackLoop 128 (-1) 128 (-90) = some 0 := by decide +kernel

/-! ### One witness per statement: states and operands that meet its hypotheses, clause by clause -/

/-- `ready` with a sounding channel 0 in Attack at position 0. -/
def playing : State := withChannel 0 (sounding .attack 0)

/-- A sustained channel 0 with nothing to recompute. -/
def steady : State := withChannel 0 (sounding .sustain 0)

/-- A PSG channel in Sustain at a position. -/
def psgChannel (pos : Rat) : Channel :=
  { sounding .sustain pos with reg := { (sounding .sustain pos).reg with format := .psg, psgX := 0x7FFF } }

/-- Operands for an update of all five parts. -/
def someTrackOps : TrackOps := ⟨-5, -6, -7, -8, 1, 2, 3, 2, 5, 6, 7, 8⟩

/-- RELEASE with operand words it does not name, and TRIGGER_START with bits above its fields, beside zeros there. -/
theorem witness_DecoderFollowsTheOpcodeTable :
    let agree := fun x y : Transaction => ∀ k : Fin 13,
      x.op[k].toNat % 2 ^ (operandWidths (x.cmd.extractLsb' 24 8)).getD k 0
        = y.op[k].toNat % 2 ^ (operandWidths (x.cmd.extractLsb' 24 8)).getD k 0
    agree ⟨0x12070000, Vector.replicate 13 0xFFFFFFFF⟩ ⟨0x12070000, noOperands⟩ ∧
      agree ⟨0x10000000, #v[1, 1, 0xFFFF0137, 2, 4, 0x100, 64, 0xFF, 1, 0xFFFFFF80, 0xFFFF, 60, 0xFF00003D]⟩
        ⟨0x10000000, #v[1, 1, 0x137, 2, 4, 0, 64, 0xFF, 1, 0, 0xFFFF, 60, 0x3D]⟩ := by decide +kernel

theorem witness_StepRunsTheDecodedInstruction :
    ready.commands = [] ∧ (ready.withFetchWord 32 0x21000000).commands = ⟨0x21000000, noOperands⟩ :: [] ∧
      decode ⟨0x21000000, noOperands⟩ = .ok (.update 0) ∧
      decode ⟨0xFF000000, noOperands⟩ = .error .reservedOpcode := by decide +kernel

theorem witness_InitTablesOpensTheGate :
    State.reset.cfg.tablesReady = false ∧ gatedByTables (.update 0) = true ∧ gatedByTables (.kill 0) = false ∧
      ready.cfg.tablesReady = true ∧ completes (step (ready.withFetchWord 32 0x21000000)) = true := by decide +kernel

theorem witness_SetInterpSelectsTheKernel :
    ((0#3, InterpMode.none) ∈ [(0#3, InterpMode.none), (1#3, .linear), (2#3, .lagrange4), (3#3, .lagrange6), (4#3, .sinc)]) ∧
      ((4#3, InterpMode.sinc) ∈
        [(0#3, InterpMode.none), (1#3, .linear), (2#3, .lagrange4), (3#3, .lagrange6), (4#3, .sinc)]) ∧
      4 < (5#3).toNat ∧ 4 < (7#3).toNat := by decide

theorem witness_SetRateStoresTheRate : (1#32 : BitVec 32) ≠ 0 ∧ (0xFFFFFFFF#32 : BitVec 32) ≠ 0 := by decide

theorem witness_ReadReturnsTheSelectedField :
    (ready.chan 9).state = .none ∧ (triggered.chan 0).state = .start ∧ (playing.chan 0).state = .attack ∧
      ((withChannel 2 (sounding .decay 0)).chan 2).state = .decay ∧ (steady.chan 0).state = .sustain ∧
      ((withChannel 2 (sounding .release 0)).chan 2).state = .release ∧ (ready.chan 9).trackId = none ∧
      (triggered.chan 0).trackId = some 0 ∧ 4 < (5#4).toNat ∧ 4 < (15#4).toNat := by decide +kernel

theorem witness_TriggerStartLatchesTheNote :
    ready.cfg.tablesReady = true ∧ triggerAccepted ready.params p1Trigger ∧
      triggerAccepted ready.params { p1Trigger with cr := 0xB0000000, repeatPoint := 4, length := 0, trackId := 15 } ∧
      triggerAccepted ready.params { p1Trigger with cr := 0xE0000000, source := 0, length := 0 } :=
  ⟨by decide, ⟨by decide, by decide +kernel, fun _ => by decide⟩, ⟨by decide, by decide +kernel, fun _ => by decide⟩,
    ⟨by decide, by decide +kernel, fun h => absurd rfl h⟩⟩

theorem witness_NoteParamsLoadsTheNote :
    triggered.cfg.tablesReady = true ∧ (triggered.chan 0).state ≠ .none ∧
      (1#32).toInt ≠ 0 ∧ -1 ≤ (1#32).toInt ∧ (0xFFFFFFFF#32).toInt ≠ 0 ∧ -1 ≤ (0xFFFFFFFF#32).toInt := by decide +kernel

theorem witness_SweepGlidesToItsOwnKey :
    0 < (⟨4, 0, 128, true⟩ : Sweep).sweepLen ∧ (((⟨4, 4, 128, true⟩ : Sweep).sweepCnt : Int) = 4) ∧
      (((⟨4, 3, 128, true⟩ : Sweep).sweepCnt : Int) < 4) := by decide

theorem witness_ReleaseEntersTheReleasePhase :
    State.reset.cfg.tablesReady = false ∧ ready.cfg.tablesReady = true ∧ (ready.chan 0).state = .none ∧
      (triggered.chan 0).state = .start ∧ (steady.chan 0).state.pastStart = true := by decide +kernel

theorem witness_KillRestoresTheVisibleResetState :
    exec (.kill 0) playing = .next (after (.kill 0) playing) ∧ (0#4).toNat ≤ 4 ∧ (4#4).toNat ≤ 4 :=
  ⟨exec_after (by decide +kernel), by decide, by decide⟩

/-- NOTE_ON of R91 and the first UPDATE, on an idle channel and on a playing one. -/
theorem witness_NoteForgetsThePreviousNote :
    let between : List Instr := [.noteParams 0 ⟨3, 0, 0, true, 57, 8, 0⟩, .trackUpdate 0 30 someTrackOps]
    let note := Instr.triggerStart 0 p1Trigger :: (between ++ [.update 0])
    ready.params = playing.params ∧ ready.cfg = playing.cfg ∧ (∀ i ∈ between, setsUpNote 0 i) ∧
      ready.chan 0 ≠ playing.chan 0 ∧ runCommands note ready = .next (nextOr ready (runCommands note ready)) := by
  refine ⟨rfl, rfl, ?_, by decide +kernel, next_of_completes ready (by decide +kernel)⟩
  intro i hi
  simp only [List.mem_cons, List.not_mem_nil, or_false] at hi
  rcases hi with rfl | rfl
  · exact .inl ⟨_, rfl⟩
  · exact .inr ⟨_, _, rfl⟩

theorem witness_TrackUpdateWithoutOwnerHasNoEffect :
    ready.cfg.tablesReady = true ∧ ((16#5).getLsbD 4 = true ∧ (3#2 : BitVec 2) = 3#2) ∧
      ¬ ((15#5).getLsbD 4 = true ∧ (3#2 : BitVec 2) = 3#2) ∧ (ready.chan 0).trackId = none ∧
      (playing.chan 0).trackId ≠ none := by decide +kernel

theorem witness_TrackUpdatePropagatesTheTrackValues :
    playing.cfg.tablesReady = true ∧ ¬ ((31#5).getLsbD 4 = true ∧ someTrackOps.modType = 3#2) ∧
      (playing.chan 0).trackId ≠ none ∧ (31#5) ≠ 0 ∧ (16#5).getLsbD 4 = true ∧ (15#5).getLsbD 4 = false := by
  decide +kernel

/-- A finite countdown at 1 and at 2 in Sustain, and one in Release, each with an owner and TUF_LEN. -/
theorem witness_TrackUpdateCountsTheNoteLength :
    let s := fun (e : EnvState) (n : Int) => withChannel 0 { sounding e 0 with noteLength := n }
    (s .sustain 1).cfg.tablesReady = true ∧ ¬ ((1#5).getLsbD 4 = true ∧ someTrackOps.modType = 3#2) ∧ (1#5) ≠ 0 ∧
      (1#5).getLsbD 0 = true ∧
      (((s .sustain 1).chan 0).trackId ≠ none ∧ ((s .sustain 1).chan 0).state.pastStart = true ∧
        ((s .sustain 1).chan 0).state ≠ .release ∧ 0 < ((s .sustain 1).chan 0).noteLength) ∧
      ((s .sustain 2).chan 0).noteLength ≠ 1 ∧ 0 < ((s .sustain 2).chan 0).noteLength ∧
      ((s .release 5).chan 0).state = .release := by decide +kernel

theorem witness_TrackUpdateNeverTouchesTheOutputs :
    exec (.trackUpdate 0 31 someTrackOps) playing = .next (after (.trackUpdate 0 31 someTrackOps) playing) :=
  exec_after (by decide +kernel)

theorem witness_UpdateIdleOrUnsetRate :
    ready.cfg.tablesReady = true ∧ (ready.chan 0).state = .none ∧ (triggered.chan 0).state ≠ .none ∧
      ({ triggered with cfg := ⟨.none, 0, true⟩ } : State).cfg.sampleRate = 0 := by decide +kernel

theorem witness_UpdateKillsADisabledChannel :
    let s := withChannel 0 { sounding .sustain 0 with reg := { (sounding .sustain 0).reg with enable := false } }
    s.cfg.tablesReady = true ∧ s.cfg.sampleRate ≠ 0 ∧ (s.chan 0).state.pastStart = true ∧
      (s.chan 0).reg.enable = false := by decide +kernel

theorem witness_UpdateStartsTheNote :
    triggered.cfg.tablesReady = true ∧ triggered.cfg.sampleRate ≠ 0 ∧ (triggered.chan 0).state = .start ∧
      triggered.params.amplMin < 0 := by decide +kernel

theorem witness_UpdateStepsTheAttack :
    playing.cfg.tablesReady = true ∧ playing.cfg.sampleRate ≠ 0 ∧ (playing.chan 0).state = .attack ∧
      (playing.chan 0).reg.enable = true ∧ (playing.chan 0).env.ampl < 0 := by decide +kernel

/-- An enabled channel with decay rate 6000, sustain 64 and release rate 30000 in a given state at a given amplitude. -/
def stepping (e : EnvState) (a : Int) : State :=
  withChannel 0 { sounding e 0 with env := ⟨a, 0xFF, 6000, 64, 30000⟩ }

/-- Decay at the level and just above it, Sustain, Release at the minimum and just above it. -/
theorem witness_UpdateStepsDecaySustainRelease :
    (∀ x ∈ [(EnvState.decay, (-9232 : Int)), (.decay, -9231), (.sustain, -15232), (.release, -62544),
        (.release, -62543)],
      (stepping x.1 x.2).cfg.tablesReady = true ∧ (stepping x.1 x.2).cfg.sampleRate ≠ 0 ∧
        ((stepping x.1 x.2).chan 0).reg.enable = true ∧
        ((stepping x.1 x.2).chan 0).state ∈ [.decay, .sustain, .release]) ∧
      (-9232 : Int) - 6000 ≤ sustainEntry testParams 64 ∧ sustainEntry testParams 64 < (-9231 : Int) - 6000 ∧
      (-62544 : Int) - 30000 ≤ testParams.amplMin ∧ testParams.amplMin < (-62543 : Int) - 30000 := by decide +kernel

theorem witness_AttackReachesDecayInBoundedTicks :
    playing.cfg.tablesReady = true ∧ playing.cfg.sampleRate ≠ 0 ∧ (playing.chan 0).state = .attack ∧
    (playing.chan 0).reg.enable = true ∧ (playing.chan 0).env.ampl < 0 := by decide +kernel

theorem witness_ReleaseEndsAfterExactlyTheCeiling :
    let s := withChannel 0 (sounding .release 0)
    s.cfg.tablesReady = true ∧ s.cfg.sampleRate ≠ 0 ∧ (s.chan 0).state = .release ∧ (s.chan 0).reg.enable = true ∧
      (s.chan 0).env.releaseRate ≠ 0 ∧ s.params.amplMin < (s.chan 0).env.ampl := by decide +kernel

theorem witness_OnlyTheListedEventsChangeTheState :
    exec (.release 0) steady = .next (after (.release 0) steady) ∧
      ((after (.release 0) steady).chan 0).state ≠ (steady.chan 0).state :=
  ⟨exec_after (by decide +kernel), by decide +kernel⟩

/-- Depth 0; the delay running; active with the delay just over. -/
theorem witness_UpdateAdvancesTheModulation :
    exec (.update 0) playing = .next (after (.update 0) playing) ∧ ((after (.update 0) playing).chan 0).state ≠ .none ∧
      (⟨.pan, 64, 0, 2, 3, 2, 0⟩ : Modulation).modDepth = 0 ∧
      (⟨.pan, 64, 64, 2, 3, 2, 0⟩ : Modulation).modDelayCnt < (⟨.pan, 64, 64, 2, 3, 2, 0⟩ : Modulation).modDelay.toNat ∧
      ({ sounding .attack 0 with mod := ⟨.pan, 64, 64, 2, 3, 3, 0⟩ }).modulating :=
  ⟨exec_after (by decide +kernel), by decide +kernel, by decide, by decide, by decide +kernel⟩

/-- Both targets, and an index at each end of the four ranges of SINE. -/
theorem witness_ModulationContributionIsBounded :
    (⟨.volume, 0, 255, 255, 0, 0, 0x2000⟩ : Modulation).modType = .volume ∧
      (⟨.pitch, 0, 255, 255, 0, 0, 0x2000⟩ : Modulation).modType ≠ .volume ∧
      (0 < 32 ∧ 31 < 32) ∧ (32 ≤ 32 ∧ 32 < 64 ∧ 32 ≤ 63 ∧ 63 < 64) ∧ (64 ≤ 64 ∧ 64 < 96 ∧ 64 ≤ 95 ∧ 95 < 96) ∧
      96 ≤ 96 ∧ 96 ≤ 127 ∧ 127 < 128 := by decide

theorem witness_ModulationPhaseHasItsPeriod : 0 < 1 ∧ 1 < 512 / Nat.gcd (16#8).toNat 512 := by decide

/-- The first UPDATE of a note needs all three recomputes; the steady channel needs none. -/
theorem witness_recomputes :
    exec (.update 0) triggered = .next (after (.update 0) triggered) ∧
      ((after (.update 0) triggered).chan 0).state ≠ .none ∧ (triggered.chan 0).flags = ⟨true, true, true⟩ ∧
      exec (.update 0) steady = .next (after (.update 0) steady) ∧ ((after (.update 0) steady).chan 0).state ≠ .none ∧
      (steady.chan 0).flags = ⟨false, false, false⟩ ∧ ¬ (steady.chan 0).sweeping ∧ ¬ (steady.chan 0).modulating ∧
      (steady.chan 0).state = .sustain :=
  ⟨exec_after (by decide +kernel), by decide +kernel, by decide +kernel, exec_after (by decide +kernel),
    by decide +kernel, by decide +kernel, by decide +kernel, by decide +kernel, by decide +kernel⟩

theorem witness_UpdateRecomputesTheTimer :
    (triggered.chan 0).flags.updTmr = true ∧
      ({ sounding .sustain 0 with sweep := ⟨4, 4, 128, false⟩ }).sweeping ∧
      ({ sounding .sustain 0 with mod := ⟨.pitch, 1, 1, 1, 0, 0, 0⟩ }).modulating := by decide +kernel

theorem witness_UpdateRecomputesTheVolume :
    (triggered.chan 0).flags.updVol = true ∧ (playing.chan 0).state ≠ .sustain := by decide +kernel

theorem witness_UpdateRecomputesThePan : (triggered.chan 0).flags.updPan = true ∧ (steady.chan 0).state ≠ .start := by
  decide +kernel

theorem witness_FlagsAreClearedOnlyByTheirRecompute :
    exec (.kill 0) triggered = .next (after (.kill 0) triggered) ∧ (Instr.kill 0 ≠ .update 0) ∧
      (triggered.chan 0).flags.updVol = true :=
  ⟨exec_after (by decide +kernel), by decide, by decide +kernel⟩

theorem witness_UpdateFrameOfALivingChannel :
    exec (.update 0) playing = .next (after (.update 0) playing) ∧ (playing.chan 0).state.pastStart = true ∧
      ((after (.update 0) playing).chan 0).state ≠ .none :=
  ⟨exec_after (by decide +kernel), by decide +kernel, by decide +kernel⟩

theorem witness_GenerateIsSilentOutsideThePlayingPhase :
    ready.cfg.tablesReady = true ∧ (ready.chan 0).state.pastStart = false ∧
      ((withChannel 0 (sounding .attack (-3))).chan 0).reg.samplePosition < 0 ∧ (psgChannel 0).reg.format = .psg ∧
      (7#4).toNat < 8 := by decide +kernel

theorem witness_GenerateNoneReadsTheNearestSample :
    playing.cfg.tablesReady = true ∧ (playing.chan 0).state.pastStart = true ∧
      0 ≤ (playing.chan 0).reg.samplePosition ∧ (playing.chan 0).reg.format ≠ .psg ∧ playing.cfg.interp = .none ∧
      Memory.wf testMemory = true ∧ (⟨1, [100, 200, -100, -200]⟩ : Buffer) ∈ testMemory ∧
      ([100, 200, -100, -200] : List Sample)[(3 : Nat)]? = some (-200 : Sample) ∧ (2 : Handle) ≠ 1 := by
  decide +kernel

theorem witness_GenerateRunsTheExactKernels :
    let s : State := { playing with cfg := ⟨.lagrange6, 53881, true⟩ }
    s.cfg.tablesReady = true ∧ (s.chan 0).state.pastStart = true ∧ 0 ≤ (s.chan 0).reg.samplePosition ∧
      (s.chan 0).reg.format ≠ .psg ∧
      (s.cfg.interp, (2 : ℚ)) ∈ [(InterpMode.linear, (0 : ℚ)), (.lagrange4, 1), (.lagrange6, 2)] := by decide +kernel

/-- T63: the weight sum at f = 1/2, increment 1 is 73/80; the quotient −39100/73 has the ceiling −535. -/
theorem witness_GenerateRunsTheWindowedSinc :
    ({ playing with cfg := ⟨.sinc, 53881, true⟩ } : State).cfg.interp = .sinc ∧
      sincWeightSum smallParams (1 / 2) 1 = 73 / 80 ∧
      sincKernel smallParams [7, -300, 1200, 1000, -2000, 400, -50] (1 / 2) 1 = some (-39100 / 73) := by decide +kernel

theorem witness_GenerateReadsTheDutyTable :
    ((withChannel 8 (psgChannel 7)).chan 8).state.pastStart = true ∧ 0 ≤ (psgChannel 7).reg.samplePosition ∧
      (psgChannel 7).reg.format = .psg ∧ 8 ≤ (8#4).toNat ∧ (13#4).toNat ≤ 13 := by decide +kernel

theorem witness_GenerateRunsTheNoiseRegister :
    ((withChannel 14 (psgChannel 7)).chan 14).state.pastStart = true ∧ 14 ≤ (14#4).toNat ∧ 14 ≤ (15#4).toNat := by
  decide +kernel

theorem witness_NoiseAdvancesByPositionNotByCall :
    ((psgChannel (7 / 2)).reg.psgLastCount : Int) ≤ ⌊(psgChannel (7 / 2)).reg.samplePosition⌋ ∧
      ⌊(psgChannel (7 / 2)).reg.samplePosition⌋ ≤ ⌊(9 / 2 : ℚ)⌋ := by decide +kernel

theorem witness_GenerateTwiceIsGenerateOnce :
    exec (.generateSample 14) (withChannel 14 (psgChannel 7))
      = .next (after (.generateSample 14) (withChannel 14 (psgChannel 7))) :=
  exec_after (by decide +kernel)

/-- The window whose entry at each offset is the offset, through which the polynomial X runs. -/
def rampWindow : List Sample := (List.range 17).map fun i => BitVec.ofInt 16 ((i : Int) - 8)

theorem witness_Lagrange4IsTheCubicInterpolant :
    (Polynomial.X : Polynomial ℚ).natDegree ≤ 3 ∧
      ∀ k : Int, k ∈ [-1, 0, 1, 2] → (Polynomial.X : Polynomial ℚ).eval (k : ℚ) = winRat testParams rampWindow k := by
  refine ⟨by simp, ?_⟩
  intro k hk
  rw [Polynomial.eval_X]
  revert k
  decide +kernel

theorem witness_Lagrange6IsTheQuinticInterpolant :
    (Polynomial.X : Polynomial ℚ).natDegree ≤ 5 ∧
      ∀ k : Int, k ∈ [-2, -1, 0, 1, 2, 3] →
        (Polynomial.X : Polynomial ℚ).eval (k : ℚ) = winRat testParams rampWindow k := by
  refine ⟨by simp, ?_⟩
  intro k hk
  rw [Polynomial.eval_X]
  revert k
  decide +kernel

theorem witness_SincAgreesAtZeroFractionIffItsTablesDo :
    1 ≤ smallParams.sincWidth ∧ 1 ≤ smallParams.sincResolution ∧ (1 : ℚ) ≤ 1 ∧ smallParams.Valid :=
  ⟨by decide +kernel, by decide +kernel, le_refl _, by constructor <;> decide +kernel⟩

theorem witness_LinearStaysBetweenItsSamples :
    (0 : ℚ) ≤ 0 ∧ (0 : ℚ) < 1 / 2 ∧ (1 / 2 : ℚ) < 1 ∧
      (winAt testParams rampWindow 0).toInt < (winAt testParams rampWindow 1).toInt ∧
      (winAt testParams rampWindow.reverse 1).toInt < (winAt testParams rampWindow.reverse 0).toInt ∧
      (winAt testParams (List.replicate 17 5) 0).toInt = (winAt testParams (List.replicate 17 5) 1).toInt := by
  decide +kernel

theorem witness_IncrementOfIdleAndPsgChannels :
    ready.cfg.tablesReady = true ∧ (ready.chan 0).state.pastStart = false ∧
      (psgChannel 7).state.pastStart = true ∧ (psgChannel 7).reg.format = .psg := by decide +kernel

/-- Below the total length: in pre-roll, on the crossing, and one step before the end. -/
theorem witness_IncrementPushesExactlyTheIntegerDelta :
    let next := fun pos : Rat => (sounding .attack pos).reg.samplePosition + (sounding .attack pos).reg.sampleIncrease
    (sounding .attack 0).state.pastStart = true ∧ (sounding .attack 0).reg.format ≠ .psg ∧ next (-3) < 0 ∧
      0 ≤ next (-1) ∧ next (-1) < 4 ∧ 0 ≤ next (5 / 2) ∧ next (5 / 2) < 4 ∧
      (sounding .attack 0).reg.totalLength = 4 := by decide +kernel

/-- The end reached exactly in loop mode, passed on the crossing call, and reached in one-shot mode. -/
theorem witness_IncrementWrapsTheLoopOrKills :
    let big := { (sounding .attack (-1)).reg with sampleIncrease := 11 / 2 }
    ((sounding .attack 3).reg.totalLength : ℚ)
        ≤ (sounding .attack 3).reg.samplePosition + (sounding .attack 3).reg.sampleIncrease ∧
      (sounding .attack 3).reg.repeatMode = .loop ∧ 0 < (sounding .attack 3).reg.length ∧
      (sounding .attack 3).reg.totalLength = (sounding .attack 3).reg.loopStart + (sounding .attack 3).reg.length ∧
      0 ≤ (sounding .attack 3).reg.samplePosition ∧ big.samplePosition < 0 ∧
      (big.totalLength : ℚ) ≤ big.samplePosition + big.sampleIncrease ∧ RepeatMode.oneShot ≠ .loop := by decide +kernel

theorem witness_CommandsWriteOnlyTheirOwn :
    step (ready.withFetchWord 32 0x02000002) = .next (nextOr ready (step (ready.withFetchWord 32 0x02000002))) ∧
      exec (.setInterp 2) ready = .next (after (.setInterp 2) ready) ∧ (after (.setInterp 2) ready).cfg ≠ ready.cfg ∧
      channelOf (.kill 3) ≠ some 4 :=
  ⟨next_of_completes ready (by decide +kernel), exec_after (by decide +kernel), by decide +kernel, by decide⟩

/-- Two states that differ in channel 5 only; a command that completes, one that is refused, and one that stops in a
state no run reaches. -/
theorem witness_ChannelsDoNotInterfere :
    let s := playing
    let s' := playing.setChan 5 (sounding .decay 2)
    channelOf (.update 0) = some 0 ∧ s.params = s'.params ∧ s.mem = s'.mem ∧ s.cfg = s'.cfg ∧ s.chan 0 = s'.chan 0 ∧
      completes (exec (.update 0) s) = true ∧ refusalOf (exec (.read 0 5) s) = some .reservedSelector ∧
      completes (exec (.incrementSample 0) (withChannel 0 { sounding .attack 3 with
        reg := { (sounding .attack 3).reg with length := 0 } })) = false := by
  refine ⟨rfl, rfl, rfl, rfl, ?_, ?_, ?_, ?_⟩ <;> decide +kernel

/-- The parameters of the tests, and those of State.reset, meet R8. -/
theorem testParams_valid : testParams.Valid := by constructor <;> decide +kernel
theorem witness_ResetIsGood : State.reset.params.Valid := by constructor <;> decide +kernel

/-- An idle channel of `ready` is good. -/
theorem idle_good (m : SampleMemory) : (Channel.reset testParams).Good testParams m where
  owned := ⟨fun _ => by decide +kernel, fun h => absurd rfl h⟩
  ampl := ⟨by decide, fun h => (by cases h), fun h => (by cases h), fun h => (by cases h), fun b hb _ =>
    ⟨by have : testParams.amplMin = -92544 := rfl; rw [this] at hb; show b - 65535 ≤ 0; omega, fun h => (by cases h)⟩⟩
  counters := ⟨.inl rfl, by decide, .inl rfl, by decide⟩
  outputs := ⟨by decide, fun h => (by cases h), fun h => (by cases h)⟩
  geometry := ⟨fun h => (by cases h), fun h => (by cases h)⟩
  ring := ⟨by decide +kernel, by decide +kernel, fun h => (by cases h), fun h => (by cases h)⟩
  noise := ⟨.inl rfl, fun h => (by cases h)⟩

/-- The channel TRIGGER_START leaves in P1 is good. -/
theorem started_good : (triggerLatch (Channel.reset testParams) p1Trigger).Good testParams testMemory where
  owned := ⟨fun h => (by cases h), fun _ => ⟨0, rfl, by decide⟩⟩
  ampl := ⟨by decide, fun h => (by cases h), fun h => (by cases h), fun h => (by cases h), fun b hb _ =>
    ⟨by have : testParams.amplMin = -92544 := rfl; rw [this] at hb; show b - 65535 ≤ 0; omega, fun h => (by cases h)⟩⟩
  counters := ⟨.inl rfl, by decide, .inl rfl, by decide⟩
  outputs := ⟨by decide, fun _ => rfl, fun h => (by cases h)⟩
  geometry := ⟨fun _ => by decide, fun h => (by cases h)⟩
  ring := ⟨by decide +kernel, by decide +kernel, fun h => (by cases h), fun h => (by cases h)⟩
  noise := ⟨.inl rfl, fun h => (by cases h)⟩

/-- P1 after command 4, with an UPDATE waiting in the stream. -/
def goodState : State :=
  { ready.setChan 0 (triggerLatch (Channel.reset testParams) p1Trigger) with
    commands := [⟨0x21000000, noOperands⟩] }

theorem goodState_good : goodState.Good where
  params := testParams_valid
  mem := by decide +kernel
  gates := ⟨fun h => (by cases h), fun h => absurd h (by decide)⟩
  channels := by
    intro ch
    by_cases h : ch = 0
    · subst h
      have : goodState.chan 0 = triggerLatch (Channel.reset testParams) p1Trigger :=
        State.chan_setChan_same ready 0 _
      rw [this]; exact started_good
    · have : goodState.chan ch = Channel.reset testParams :=
        (State.chan_setChan_ne ready _ h).trans (State.chan_resetWith testParams ch)
      rw [this]; exact idle_good _

/-- A refused command, an accepted one, both in a good state. -/
theorem witness_RefusalsAreExactlyThoseListed :
    goodState.Good ∧ refusedByR252 goodState (.release 0) ∧ ¬ refusedByR252 goodState (.update 0) :=
  ⟨goodState_good, .inr (.inr (by decide +kernel)), by
    rintro (h | ⟨_, h⟩)
    · cases h
    · exact absurd h (by decide)⟩

theorem witness_EveryStepKeepsTheStateGood :
    goodState.Good ∧ step goodState = .next (nextOr goodState (step goodState)) :=
  ⟨goodState_good, next_of_completes goodState (by decide +kernel)⟩

/-- A playing loop of one sample: every window entry is that sample. -/
def onSample : Channel :=
  { sounding .sustain 0 with
    reg := { (sounding .sustain 0).reg with length := 1, totalLength := 1 }
    ring := ⟨List.replicate 17 5, 0, true⟩ }

/-- The memory and the command stream that go with it. -/
def loopState : State :=
  { (ready.setChan 0 onSample) with mem := placeBuffer [] 1 [5], commands := [⟨0x31000000, noOperands⟩] }

theorem onSample_index (j : Int) : feedIndex onSample.reg j = 0 := by
  unfold feedIndex
  split_ifs with h1 h2 h3
  · rfl
  · have : (onSample.reg.totalLength : Int) = 1 := rfl
    omega
  · show 0 + ((j - 0) % 1).toNat = 0
    simp
  · exact absurd rfl h3

theorem onSample_ring : onSample.RingTracksNote testParams loopState.mem := by
  refine ⟨by decide +kernel, by decide +kernel,
    fun _ _ h => absurd h (by decide +kernel), fun _ _ _ => ⟨rfl, by decide +kernel, 0, ?_, ?_, ?_⟩⟩
  · rw [onSample_index]; decide +kernel
  · rw [onSample_index]; rfl
  · intro k h1 h2
    have hk : (testParams.half : Int) = 8 := by decide +kernel
    rw [hk] at h1 h2
    unfold feed
    rw [onSample_index]
    have : ∀ n : Fin 17, winAt testParams onSample.ring.win ((n.val : Int) - 8)
        = sampleRead loopState.mem onSample.reg.source 0 := by decide +kernel
    have h3 := this ⟨(k + 8).toNat, by omega⟩
    have h4 : (((k + 8).toNat : Nat) : Int) - 8 = k := by omega
    simpa only [h4] using h3

theorem onSample_good : onSample.Good testParams loopState.mem where
  owned := ⟨fun h => (by cases h), fun _ => ⟨0, rfl, by decide⟩⟩
  ampl := ⟨by decide, fun h => (by cases h), fun h => (by cases h), fun _ => by decide +kernel, fun b hb _ => by
    have h1 : testParams.amplMin = -92544 := rfl
    have h2 : onSample.env.ampl = -15232 := rfl
    rw [h1] at hb
    rw [h2]
    exact ⟨by omega, fun _ => by omega⟩⟩
  counters := ⟨.inl rfl, by decide, .inl rfl, by decide⟩
  outputs := ⟨by decide, fun h => (by cases h), fun _ => by decide +kernel⟩
  geometry := ⟨fun h => (by cases h), fun _ => by decide +kernel⟩
  ring := onSample_ring
  noise := ⟨.inl rfl, fun _ h => absurd h (by decide)⟩

theorem loopState_channels (ch : ChanId) : (loopState.chan ch).Good testParams loopState.mem := by
  by_cases h : ch = 0
  · subst h
    have : loopState.chan 0 = onSample := State.chan_setChan_same ready 0 _
    rw [this]; exact onSample_good
  · have : loopState.chan ch = Channel.reset testParams :=
      (State.chan_setChan_ne ready _ h).trans (State.chan_resetWith testParams ch)
    rw [this]; exact idle_good _

theorem loopState_good : loopState.Good where
  params := testParams_valid
  mem := by decide +kernel
  gates := ⟨fun h => (by cases h), fun h => absurd h (by decide)⟩
  channels := loopState_channels

theorem witness_EveryStepKeepsTheRingInvariant :
    loopState.params.Valid ∧
      (∀ ch, (loopState.chan ch).GeometryValid ∧ (loopState.chan ch).RingTracksNote loopState.params loopState.mem) ∧
      step loopState = .next (nextOr loopState (step loopState)) :=
  ⟨testParams_valid, fun ch => ⟨(loopState_channels ch).geometry, (loopState_channels ch).ring⟩,
    next_of_completes loopState (by decide +kernel)⟩

/-- A constant window with a non-zero weight sum, and a good state at an integral position. -/
theorem witness_KernelsAgreeAtTheirBoundaries :
    InterpMode.lagrange6 ≠ .sinc ∧
      (∀ k : Int, k ∈ [-3, -2, -1, 0, 1, 2, 3] → winAt smallParams (List.replicate 7 5) k = 5) ∧ smallParams.half = 3 ∧
      sincWeightSum smallParams (1 / 2) 1 ≠ 0 ∧ loopState.Good ∧ (loopState.chan 0).state.pastStart = true ∧
      (loopState.chan 0).reg.format ≠ .psg ∧ 0 ≤ (loopState.chan 0).reg.samplePosition ∧
      Int.fract (loopState.chan 0).reg.samplePosition = 0 :=
  ⟨by decide, by decide +kernel, by decide +kernel, by decide +kernel, loopState_good, by decide +kernel,
    by decide +kernel, by decide +kernel, by decide +kernel⟩

end Sys2Proof.Tests
end

/-! PROOFS. The statements of spec/00_scope.md: one step of the command stream (R5, R80, R88, R270), and the
independence of the channels (R6, R20, R282). -/

namespace Sys2Proof.Machine

/-! ### One step of the command stream -/

/-- An empty stream yields no transaction (R5; log 1). -/
theorem fetch_of_no_command {s : State} (h : s.commands = []) : fetch s = none := by
  simp [fetch, h]

/-- A waiting transaction is taken from the stream, which keeps the rest (R80; log 1). -/
theorem fetch_of_commands_cons {s : State} {x : Transaction} {rest : List Transaction} (h : s.commands = x :: rest) :
    fetch s = some (x, { s with commands := rest }) := by
  simp [fetch, h]

/-- "Nothing happens until the first command" (R270). -/
theorem step_of_no_command {s : State} (h : s.commands = []) : step s = .next s := by
  simp only [step, fetch_of_no_command h]

theorem step_of_decode_ok {s : State} {x : Transaction} {rest : List Transaction} {i : Instr}
    (h : s.commands = x :: rest) (hd : decode x = .ok i) : step s = exec i { s with commands := rest } := by
  simp only [step, fetch_of_commands_cons h, hd]

/-- Refusal F1 (R88, R252). -/
theorem step_of_decode_error {s : State} {x : Transaction} {rest : List Transaction} {e : DecodeError}
    (h : s.commands = x :: rest) (hd : decode x = .error e) : step s = .refused (.reservedEncoding e) := by
  simp only [step, fetch_of_commands_cons h, hd]

/-- Settles O4, from the equations of `step` for an empty stream, a command, and a word that is none. -/
theorem stepRunsTheDecodedInstruction : Obligations.StepRunsTheDecodedInstruction := by
  unfold Obligations.StepRunsTheDecodedInstruction
  exact fun _ => ⟨step_of_no_command, fun _ _ h => ⟨fun _ => step_of_decode_ok h, fun _ => step_of_decode_error h⟩⟩

/-! ### Independence of the channels

A channel command's checks and its result are functions of the parameters, the sample memory, the configuration and
the channel it names. So in two states that agree on these it takes the same branch and writes the same values. -/

/-- `s'` holds what a command on channel `ch` can read just as `s` does; the other channels are free. -/
structure AgreeOn (ch : ChanId) (s s' : State) : Prop where
  params : s'.params = s.params
  mem    : s'.mem = s.mem
  cfg    : s'.cfg = s.cfg
  chan   : s'.chan ch = s.chan ch

/-- The second outcome is the first one as channel `ch` and RES show it: completed with the same channel and the same
RES, or stopped for the same reason. -/
def AlikeAt (ch : ChanId) : (o o' : Host.Outcome State Fault Refusal) → Prop
  | .next t, o' => ∃ t', o' = .next t' ∧ t'.chan ch = t.chan ch ∧ t'.res = t.res
  | .refused r, o' => o' = .refused r
  | .fault e, o' => o' = .fault e

/-- Completing with the same channel and the same RES. -/
theorem alikeAt_complete (s s' : State) (ch : ChanId) (c : Channel) (r : Word) :
    AlikeAt ch (s.complete ch c r) (s'.complete ch c r) :=
  ⟨_, rfl, by simp, rfl⟩

section
variable {ch : ChanId} {s s' : State} (h : AgreeOn ch s s')
include h

/-- Completing with RES alone written. -/
theorem AgreeOn.alikeAt_setRes (r : Word) : AlikeAt ch (.next (s.setRes r)) (.next (s'.setRes r)) :=
  ⟨_, rfl, h.chan, rfl⟩

theorem AgreeOn.execTriggerStart_alike (o : TriggerOps) :
    AlikeAt ch (execTriggerStart ch o s) (execTriggerStart ch o s') := by
  unfold execTriggerStart
  rw [h.cfg, h.params, h.chan]
  split_ifs
  · rfl
  · cases triggerCheck s.params o with
    | some r => rfl
    | none => exact alikeAt_complete ..

theorem AgreeOn.execNoteParams_alike (o : NoteOps) : AlikeAt ch (execNoteParams ch o s) (execNoteParams ch o s') := by
  unfold execNoteParams
  rw [h.cfg, h.chan]
  split_ifs
  · rfl
  · rfl
  · rfl
  · exact alikeAt_complete ..

theorem AgreeOn.execRelease_alike : AlikeAt ch (execRelease ch s) (execRelease ch s') := by
  unfold execRelease
  rw [h.cfg, h.chan]
  split_ifs
  · rfl
  · rfl
  · exact alikeAt_complete ..

theorem AgreeOn.execKill_alike : AlikeAt ch (execKill ch s) (execKill ch s') := by
  unfold execKill
  rw [h.params, h.chan]
  exact alikeAt_complete ..

theorem AgreeOn.execTrackUpdate_alike (f : BitVec 5) (o : TrackOps) :
    AlikeAt ch (execTrackUpdate ch f o s) (execTrackUpdate ch f o s') := by
  unfold execTrackUpdate
  rw [h.cfg, h.chan]
  split_ifs
  · rfl
  · rfl
  · exact h.alikeAt_setRes 0
  · exact alikeAt_complete ..

theorem AgreeOn.execUpdate_alike : AlikeAt ch (execUpdate ch s) (execUpdate ch s') := by
  unfold execUpdate
  rw [h.cfg, h.params, h.chan]
  split_ifs
  · rfl
  · exact h.alikeAt_setRes 0
  · rfl
  · cases tickChannel s.params s.cfg.sampleRate (s.chan ch) with
    | none => rfl
    | some c => exact alikeAt_complete ..

theorem AgreeOn.execGenerateSample_alike : AlikeAt ch (execGenerateSample ch s) (execGenerateSample ch s') := by
  unfold execGenerateSample
  rw [h.cfg, h.params, h.mem, h.chan]
  split_ifs
  · rfl
  · exact alikeAt_complete ..

theorem AgreeOn.execIncrementSample_alike : AlikeAt ch (execIncrementSample ch s) (execIncrementSample ch s') := by
  unfold execIncrementSample
  rw [h.cfg, h.params, h.mem, h.chan]
  split_ifs
  · rfl
  · exact h.alikeAt_setRes 0
  · cases incrementChannel s.params s.mem (s.chan ch) with
    | none => rfl
    | some c => exact alikeAt_complete ..

theorem AgreeOn.execRead_alike (sel : BitVec 4) : AlikeAt ch (execRead ch sel s) (execRead ch sel s') := by
  unfold execRead
  rw [h.chan]
  cases readField (s.chan ch) sel with
  | none => rfl
  | some r => exact h.alikeAt_setRes r

/-- Every command on channel `ch` has alike outcomes in states that agree on what it can read. -/
theorem AgreeOn.exec_alike {i : Instr} (hi : channelOf i = some ch) : AlikeAt ch (exec i s) (exec i s') := by
  cases i with
  | nop => cases hi
  | initTables => cases hi
  | setInterp => cases hi
  | setRate => cases hi
  | triggerStart _ o => cases hi; exact h.execTriggerStart_alike o
  | noteParams _ o => cases hi; exact h.execNoteParams_alike o
  | release => cases hi; exact h.execRelease_alike
  | kill => cases hi; exact h.execKill_alike
  | trackUpdate _ f o => cases hi; exact h.execTrackUpdate_alike f o
  | update => cases hi; exact h.execUpdate_alike
  | generateSample => cases hi; exact h.execGenerateSample_alike
  | incrementSample => cases hi; exact h.execIncrementSample_alike
  | read _ sel => cases hi; exact h.execRead_alike sel

end

/-- Settles O55: the two outcomes are alike, and each clause reads that off one constructor of the first outcome. -/
theorem channelsDoNotInterfere : Obligations.ChannelsDoNotInterfere := by
  unfold Obligations.ChannelsDoNotInterfere
  intro i ch s s' hi hparams hmem hcfg hchan
  have hagree : AgreeOn ch s s' := ⟨hparams.symm, hmem.symm, hcfg.symm, hchan.symm⟩
  have halike := hagree.exec_alike hi
  refine ⟨fun t ht => ?_, fun r hr => ?_, fun e he => ?_⟩
  · rwa [ht] at halike
  · rwa [hr] at halike
  · rwa [he] at halike

end Sys2Proof.Machine

/-! PROOFS. The statements of spec/10_state.md: the reset state (R40, R270), and the invariant that every step keeps
(R26 to R29, R33, R39, R67, R193, R198, R241, R243). -/

namespace Sys2Proof.Machine

/-! ### The feed sequence while the position moves (R73, R198, R199) -/

theorem ratFloor_lt_natCast {q : Rat} {n : Nat} : ratFloor q < n ↔ q < n := by
  rw [ratFloor_eq]; exact_mod_cast Int.floor_lt (a := q) (z := n)

theorem natCast_le_ratFloor {q : Rat} {n : Nat} : (n : Int) ≤ ratFloor q ↔ (n : Rat) ≤ q := by
  rw [ratFloor_eq]; exact_mod_cast Int.le_floor (a := q) (z := n)

/-- An unwrapped position is never before the element it reads. -/
theorem feedIndex_le {g : SoundRegister} (hs : g.totalLength = g.loopStart + g.length) (ht : 0 < g.totalLength)
    {j : Int} (hj : 0 ≤ j) : (feedIndex g j : Int) ≤ j := by
  unfold feedIndex
  split_ifs
  · omega
  · omega
  · have hdiv := Int.mul_ediv_add_emod (j - g.loopStart) g.length
    have hq : 0 ≤ (g.length : Int) * ((j - g.loopStart) / g.length) :=
      mul_nonneg (by omega) (Int.ediv_nonneg (by omega) (by omega))
    omega
  · omega

/-- Short of the end of data the feed reads consecutive elements (R73). -/
theorem feedIndex_add {g : SoundRegister} (hs : g.totalLength = g.loopStart + g.length) (ht : 0 < g.totalLength)
    (hl : g.repeatMode = .loop → 0 < g.length) {U d : Nat} (h : feedIndex g U + d < g.totalLength) :
    feedIndex g ((U : Int) + d) = feedIndex g U + d := by
  induction d with
  | zero => simp
  | succ d ih =>
    have hd := ih (by omega)
    calc feedIndex g ((U : Int) + (d + 1 : Nat)) = feedIndex g ((U : Int) + d + 1) := by push_cast; ring_nf
      _ = nextFill g (feedIndex g ((U : Int) + d)) := (nextFill_feedIndex ht hs hl (by omega)).symm
      _ = feedIndex g U + (d + 1) := by rw [hd, nextFill, if_neg (by omega)]; omega

/-- In loop mode a position and the element it reads differ by whole loops (R73). -/
theorem length_dvd_sub_feedIndex {g : SoundRegister} (hloop : g.repeatMode = .loop) (hl : 0 < g.length) {j : Int}
    (hj : 0 ≤ j) : (g.length : Int) ∣ j - feedIndex g j := by
  unfold feedIndex
  rw [if_neg (by omega)]
  split_ifs
  · simp [hj]
  · have hpos := Int.emod_nonneg (j - g.loopStart) (b := g.length) (by omega)
    rw [Nat.cast_add, Int.toNat_of_nonneg hpos, ← sub_sub]
    exact Int.dvd_self_sub_emod

/-- Past the end of data in loop mode the element read is the one whole loops away inside the loop (R73, R199). -/
theorem feedIndex_of_wrapped {g : SoundRegister} (hs : g.totalLength = g.loopStart + g.length)
    (hloop : g.repeatMode = .loop) {j x : Int} (hj : (g.totalLength : Int) ≤ j) (hlo : (g.loopStart : Int) ≤ x)
    (hhi : x < g.totalLength) (hdvd : (g.length : Int) ∣ j - x) : (feedIndex g j : Int) = x := by
  have hmod : (j - g.loopStart) % (g.length : Int) = x - g.loopStart := by
    have hsame : (j - g.loopStart) % (g.length : Int) = (x - g.loopStart) % (g.length : Int) :=
      Int.emod_eq_emod_iff_emod_sub_eq_zero.mpr (Int.emod_eq_zero_of_dvd (by simpa using hdvd))
    rw [hsame, Int.emod_eq_of_lt (by omega) (by omega)]
  unfold feedIndex
  rw [if_neg (by omega), if_neg (by omega), if_pos hloop, hmod]
  omega

/-! ### The ring while the position moves (R194, R198, R199) -/

/-- The channel with its position and its ring written, as INCREMENT_SAMPLE writes them (R194). -/
def Channel.movedTo (c : Channel) (pos : Rat) (r : Ring) : Channel :=
  { c with reg := { c.reg with samplePosition := pos }, ring := r }

/-- INCREMENT_SAMPLE in one line per outcome (R194, R199): the position alone of a PSG channel, the position and the
ring before the end of data, the wrap of a loop, and the kill. -/
theorem incrementChannel_cases {p : Params} {m : SampleMemory} {c d : Channel} {new : Rat}
    (hnew : new = c.reg.samplePosition + c.reg.sampleIncrease) (h : incrementChannel p m c = some d) :
    (c.reg.format = .psg ∧ d = c.movedTo new c.ring) ∨
    (c.reg.format ≠ .psg ∧ new < c.reg.totalLength ∧
      d = c.movedTo new (advanceRing p m c.reg c.reg.samplePosition new c.ring)) ∨
    (c.reg.format ≠ .psg ∧ (c.reg.totalLength : Rat) ≤ new ∧ c.reg.repeatMode = .loop ∧ c.reg.length ≠ 0 ∧
      d = c.movedTo (new - (wrapCount new c.reg.length c.reg.totalLength : Rat) * c.reg.length)
        (advanceRing p m c.reg c.reg.samplePosition new c.ring)) ∨
    (c.reg.format ≠ .psg ∧ (c.reg.totalLength : Rat) ≤ new ∧ c.reg.repeatMode ≠ .loop ∧ d = killAction p c) := by
  subst hnew
  unfold incrementChannel endOfData at h
  dsimp only at h
  split_ifs at h with hf ht hr hl
  · cases h; exact .inl ⟨hf, rfl⟩
  · cases h; exact .inr (.inr (.inl ⟨hf, ht, hr, hl, rfl⟩))
  · cases h; exact .inr (.inr (.inr ⟨hf, ht, hr, rfl⟩))
  · cases h; exact .inr (.inl ⟨hf, not_le.mp ht, rfl⟩)

/-- Nothing is pushed in pre-roll (R194). -/
theorem advanceRing_preroll (p : Params) (m : SampleMemory) (g : SoundRegister) (old : Rat) {new : Rat}
    (h : new < 0) (r : Ring) : advanceRing p m g old new r = r := if_pos h

theorem ringPushMany_size {m : SampleMemory} {g : SoundRegister} {n : Nat} {r : Ring} (h : r.win ≠ []) :
    (ringPushMany m g n r).win.length = r.win.length := by
  induction n generalizing r with
  | zero => rfl
  | succ n ih =>
    have hpos := List.length_pos_iff.mpr h
    rw [ringPushMany, ih (by simp [ringPushNext])]
    simp [ringPushNext]
    omega

/-- A position that has advanced to the playing part of a PCM note leaves the ring on the feed: it slid by the integer
delta `d`, from an unwrapped position `U` that reads the element of the old position, or from 0 on the crossing. -/
theorem advanceRing_tracksFeed {p : Params} {m : SampleMemory} {c : Channel} (hr : c.RingTracksNote p m)
    (hg : c.GeometryValid) (hst : c.state.pastStart = true) (hf : c.reg.format ≠ .psg) {new : Rat}
    (hle : c.reg.samplePosition ≤ new) (hnew : 0 ≤ new) :
    (advanceRing p m c.reg c.reg.samplePosition new c.ring).ringValid = true ∧
      ∃ U d : Nat, (feedIndex c.reg U : Int) + d = ratFloor new ∧
        TracksFeed p m c.reg ((U : Int) + d) (advanceRing p m c.reg c.reg.samplePosition new c.ring) := by
  obtain ⟨-, hs, hpcm⟩ := hg.live hst
  obtain ⟨-, ht, hl⟩ := hpcm hf
  unfold advanceRing
  rw [if_neg (not_lt.mpr hnew)]
  split_ifs with hold
  · refine ⟨by rw [ringPushMany_ringValid, ringStart_ringValid], 0, (ratFloor new).toNat, ?_, ?_⟩
    · have hzero : (feedIndex c.reg (0 : Nat) : Int) ≤ 0 := feedIndex_le hs ht (by omega)
      have := ratFloor_nonneg hnew
      omega
    · exact tracksFeed_pushMany ht hs hl _ (by omega) (tracksFeed_ringStart p m ht hs hl)
  · obtain ⟨hvalid, -, U, hU, hfill, hwin⟩ := hr.playing hst hf (not_lt.mp hold)
    refine ⟨by rw [ringPushMany_ringValid, hvalid], U, (ratFloor new - ratFloor c.reg.samplePosition).toNat, ?_, ?_⟩
    · have := ratFloor_mono hle
      omega
    · exact tracksFeed_pushMany ht hs hl _ (by omega) ⟨hr.size, hfill, hwin⟩

/-- A ring on the feed at a position below the total length meets the ring invariant there (R198). -/
theorem Channel.RingTracksNote.of_tracksFeed {p : Params} {m : SampleMemory} {c : Channel} {pos : Rat} {r : Ring}
    (hinc : 0 ≤ c.reg.sampleIncrease) (hpos : 0 ≤ pos) (hlt : pos < c.reg.totalLength) (hvalid : r.ringValid = true)
    {V : Nat} (hV : (feedIndex c.reg V : Int) = ratFloor pos) (hfeed : TracksFeed p m c.reg V r) :
    (c.movedTo pos r).RingTracksNote p m where
  size := hfeed.size
  increase := hinc
  preroll _ _ hneg := absurd hpos (not_le.mpr hneg)
  playing _ _ _ := ⟨hvalid, hlt, V, hV, hfeed.fill, hfeed.win⟩

/-- KillAction empties the ring (R114). -/
theorem killAction_ringTracksNote (p : Params) (m : SampleMemory) (c : Channel) :
    (killAction p c).RingTracksNote p m :=
  ⟨List.length_replicate, le_refl _, nofun, nofun⟩

/-- INCREMENT_SAMPLE keeps the ring invariant wherever the geometry is valid (R194, R198, R199). -/
theorem incrementChannel_ringTracksNote {p : Params} {m : SampleMemory} {c d : Channel} (hr : c.RingTracksNote p m)
    (hg : c.GeometryValid) (hst : c.state.pastStart = true) (h : incrementChannel p m c = some d) :
    d.RingTracksNote p m := by
  obtain ⟨new, hnew⟩ : ∃ new, new = c.reg.samplePosition + c.reg.sampleIncrease := ⟨_, rfl⟩
  have hle : c.reg.samplePosition ≤ new := by rw [hnew]; linarith [hr.increase]
  obtain ⟨-, hs, hpcm⟩ := hg.live hst
  rcases incrementChannel_cases hnew h with ⟨hf, rfl⟩ | ⟨hf, hend, rfl⟩ | ⟨hf, hend, hloop, -, rfl⟩ | ⟨-, -, -, rfl⟩
  · exact ⟨hr.size, hr.increase, fun _ h => absurd hf h, fun _ h => absurd hf h⟩
  · obtain ⟨-, ht, hl⟩ := hpcm hf
    by_cases hneg : new < 0
    · rw [advanceRing_preroll p m _ _ hneg]
      exact ⟨hr.size, hr.increase, fun _ _ _ => hr.preroll hst hf (hle.trans_lt hneg),
        fun _ _ hpos => absurd hneg (not_lt.mpr hpos)⟩
    · obtain ⟨hvalid, U, d, hUd, hfeed⟩ := advanceRing_tracksFeed hr hg hst hf hle (not_lt.mp hneg)
      have hfloor := ratFloor_lt_natCast.mpr hend
      refine .of_tracksFeed (V := U + d) hr.increase (not_lt.mp hneg) hend hvalid ?_ (by exact_mod_cast hfeed)
      rw [Nat.cast_add, feedIndex_add hs ht hl (by omega)]
      exact_mod_cast hUd
  · obtain ⟨-, ht, hl⟩ := hpcm hf
    have hnonneg : 0 ≤ new := (Nat.cast_nonneg _).trans hend
    obtain ⟨hvalid, U, d, hUd, hfeed⟩ := advanceRing_tracksFeed hr hg hst hf hle hnonneg
    obtain ⟨hlo, hhi, -⟩ := wrapCount_lands (hl hloop) hend
    generalize wrapCount new c.reg.length c.reg.totalLength = n at hlo hhi ⊢
    have hstart : (c.reg.loopStart : Rat) ≤ new - n * c.reg.length := by
      rw [hs] at hlo; push_cast at hlo; linarith
    have hfloor : ratFloor (new - n * c.reg.length) = ratFloor new - n * c.reg.length := by
      exact_mod_cast ratFloor_sub_int new (n * c.reg.length)
    have hU := feedIndex_le hs ht (Int.natCast_nonneg U)
    have hend' := natCast_le_ratFloor.mpr hend
    refine .of_tracksFeed (V := U + d) hr.increase ((Nat.cast_nonneg _).trans hstart) hhi hvalid ?_
      (by exact_mod_cast hfeed)
    refine feedIndex_of_wrapped hs hloop (by omega) (natCast_le_ratFloor.mpr hstart) (ratFloor_lt_natCast.mpr hhi) ?_
    have hsum : ((U + d : Nat) : Int) - ratFloor (new - n * c.reg.length)
        = ((U : Int) - feedIndex c.reg U) + n * c.reg.length := by
      rw [hfloor]; push_cast; linarith
    rw [hsum]
    exact dvd_add (length_dvd_sub_feedIndex hloop (hl hloop) (by omega)) (dvd_mul_left _ _)
  · exact killAction_ringTracksNote p m c

/-! ### Channels that stay good -/

theorem EnvState.ne_none_of_pastStart {e : EnvState} (h : e.pastStart = true) : e ≠ .none := by
  rintro rfl; cases h

theorem EnvState.ne_start_of_pastStart {e : EnvState} (h : e.pastStart = true) : e ≠ .start := by
  rintro rfl; cases h

theorem EnvState.eq_start_of_not_pastStart {e : EnvState} (hne : e ≠ .none) (h : e.pastStart ≠ true) :
    e = .start := by
  cases e with
  | none => exact absurd rfl hne
  | start => rfl
  | attack => exact absurd rfl h
  | decay => exact absurd rfl h
  | sustain => exact absurd rfl h
  | release => exact absurd rfl h

/-- The cleared volume registers give the cleared volume (R33, R114). -/
theorem linearVolume_cleared : linearVolume 0 0 = 0 := by decide

/-- The counters of a channel nothing has counted on yet (R27 to R29). -/
theorem Channel.CountersInRange.of_zero {c : Channel} (hn : c.noteLength = -1) (hl : c.sweep.sweepLen = 0)
    (hc : c.sweep.sweepCnt = 0) (hm : c.mod.modDelayCnt = 0) : c.CountersInRange :=
  ⟨.inl hn, by omega, .inl hc, by omega⟩

/-- KillAction leaves a good channel wherever the amplitude, the sweep and the modulation counter, which it does not
write, are in the ranges of an idle channel (R39, R114). -/
theorem killAction_good {p : Params} {c : Channel} (m : SampleMemory) (hle : c.env.ampl ≤ 0)
    (hfloor : ∀ b : Int, b ≤ p.amplMin → (∀ i < 128, b ≤ sustainEntry p i) → b - 65535 ≤ c.env.ampl)
    (hcount : c.CountersInRange) : (killAction p c).Good p m where
  owned := ⟨fun _ => ⟨rfl, rfl, rfl, rfl, rfl, rfl⟩, fun h => absurd rfl h⟩
  ampl := ⟨hle, nofun, nofun, nofun, fun b hb hs => ⟨hfloor b hb hs, nofun⟩⟩
  counters := ⟨.inl rfl, hcount.sweepLen, hcount.sweepCnt, hcount.modDelay⟩
  outputs := ⟨linearVolume_cleared.symm, nofun, nofun⟩
  geometry := ⟨nofun, nofun⟩
  ring := killAction_ringTracksNote p m c
  noise := ⟨.inl rfl, nofun⟩

theorem Channel.Good.kill {p : Params} {m : SampleMemory} {c : Channel} (h : c.Good p m) :
    (killAction p c).Good p m :=
  killAction_good m h.ampl.le_zero (fun b hb hs => (h.ampl.floor b hb hs).1) h.counters

/-- A reset channel is a killed one (R40, R114). -/
theorem reset_good {p : Params} (hp : p.Valid) (m : SampleMemory) : (Channel.reset p).Good p m := by
  have hmin := hp.amplMin_neg
  exact killAction_good (c := Channel.reset p) m (le_refl 0)
    (fun b hb _ => by show b - 65535 ≤ (0 : Int); omega) (.of_zero rfl rfl rfl rfl)

/-- What TRIGGER_START has checked when it accepts (R110; F6, F7, F8). -/
theorem triggerCheck_accepts {p : Params} {o : TriggerOps} (h : triggerCheck p o = none) :
    crRepeatMode o.cr ≠ .reserved ∧ o.trackId.toNat < p.nTracks ∧ (crFormat o.cr ≠ .psg →
      o.source ≠ 0 ∧ 0 < o.repeatPoint.toNat + o.length.toNat ∧ (crRepeatMode o.cr = .loop → 0 < o.length.toNat)) := by
  unfold triggerCheck at h
  split_ifs at h with hrep htrack hpsg hsrc hlen hloop
  · exact ⟨hrep, not_le.mp htrack, fun hpcm => absurd hpsg hpcm⟩
  · exact ⟨hrep, not_le.mp htrack, fun _ =>
      ⟨hsrc, Nat.pos_of_ne_zero hlen, fun hr => Nat.pos_of_ne_zero fun hz => hloop ⟨hr, hz⟩⟩⟩

theorem Channel.Good.triggerLatch {p : Params} {m : SampleMemory} {c : Channel} (h : c.Good p m) {o : TriggerOps}
    (hcheck : triggerCheck p o = none) : (triggerLatch c o).Good p m := by
  obtain ⟨hrep, htrack, hpcm⟩ := triggerCheck_accepts hcheck
  exact {
    owned := ⟨nofun, fun _ => ⟨o.trackId, rfl, htrack⟩⟩
    ampl := ⟨h.ampl.le_zero, nofun, nofun, nofun, fun b hb hs => ⟨(h.ampl.floor b hb hs).1, nofun⟩⟩
    counters := .of_zero rfl rfl rfl rfl
    outputs := ⟨h.outputs.vol, fun _ => rfl, nofun⟩
    geometry := ⟨fun _ => ⟨hrep, hpcm⟩, nofun⟩
    ring := ⟨h.ring.size, h.ring.increase, nofun, nofun⟩
    noise := ⟨h.noise.last, nofun⟩ }

/-- The channel with the registers written that only steer the next UPDATE: NOTE_PARAMS and the parts of TRACK_UPDATE
write no others but those of ReleaseAction (R111, R131 to R135). -/
def Channel.withControls (c : Channel) (n : Int) (w : Sweep) (r : Modulation) (k : NoteRegs) (f : RecomputeFlags) :
    Channel :=
  { c with noteLength := n, sweep := w, mod := r, note := k, flags := f }

/-- These registers may take any values in their ranges, as long as an idle channel keeps its length and a channel in
Start keeps its flags. -/
theorem Channel.Good.withControls {p : Params} {m : SampleMemory} {c : Channel} (h : c.Good p m) {n : Int} {w : Sweep}
    {r : Modulation} {k : NoteRegs} {f : RecomputeFlags} (hidle : c.state = .none → n = c.noteLength)
    (hstart : c.state = .start → f = allFlags) (hcount : (c.withControls n w r k f).CountersInRange) :
    (c.withControls n w r k f).Good p m where
  owned := ⟨fun hs => by simpa only [Channel.withControls, hidle hs] using h.owned.idle hs, h.owned.used⟩
  ampl := ⟨h.ampl.le_zero, h.ampl.attack, h.ampl.decay, h.ampl.sustain, h.ampl.floor⟩
  counters := hcount
  outputs := ⟨h.outputs.vol, hstart, h.outputs.timer⟩
  geometry := ⟨h.geometry.pending, h.geometry.live⟩
  ring := ⟨h.ring.size, h.ring.increase, h.ring.preroll, h.ring.playing⟩
  noise := ⟨h.noise.last, h.noise.count⟩

/-- SweepSetup leaves a length of at least −1 and a counter of 0 (R112). -/
theorem sweepSetup_ranges (key : BitVec 8) {n : Int} (hn : -1 ≤ n) (e : Bool) (pk pt : BitVec 8) (b : BitVec 16) :
    -1 ≤ (sweepSetup key n e pk pt b).sweepLen ∧ (sweepSetup key n e pk pt b).sweepCnt = 0 := by
  unfold sweepSetup
  dsimp only
  split_ifs
  · exact ⟨neg_one_lt_zero.le, rfl⟩
  · exact ⟨hn, rfl⟩
  · have ht := (unsignedOp_bounds pt).1
    exact ⟨neg_one_lt_zero.le.trans (asr_nonneg 11 (by positivity)), rfl⟩

theorem Channel.Good.noteLatch {p : Params} {m : SampleMemory} {c : Channel} (h : c.Good p m) {o : NoteOps}
    (hst : c.state ≠ .none) (hne : signedOp o.noteLength ≠ 0) (hge : -1 ≤ signedOp o.noteLength) :
    (noteLatch c o).Good p m := by
  obtain ⟨hlen, hcnt⟩ := sweepSetup_ranges c.note.key hge o.portaEnable o.portaKey o.portaTime o.sweepBase
  exact h.withControls (fun hs => absurd hs hst) (fun _ => rfl)
    ⟨by show signedOp o.noteLength = -1 ∨ 1 ≤ signedOp o.noteLength; omega, hlen, .inl hcnt, h.counters.modDelay⟩

/-- ReleaseAction on a channel past Start (R113). -/
theorem Channel.Good.release {p : Params} {m : SampleMemory} {c : Channel} (h : c.Good p m)
    (hst : c.state.pastStart = true) : (releaseAction c).Good p m where
  owned := ⟨nofun, fun _ => h.owned.used (EnvState.ne_none_of_pastStart hst)⟩
  ampl := ⟨h.ampl.le_zero, nofun, nofun, nofun, fun b hb hs =>
    ⟨(h.ampl.floor b hb hs).1, fun _ => (h.ampl.floor b hb hs).2 hst⟩⟩
  counters := ⟨.inl rfl, h.counters.sweepLen, h.counters.sweepCnt, h.counters.modDelay⟩
  outputs := ⟨h.outputs.vol, nofun, fun _ => h.outputs.timer hst⟩
  geometry := ⟨nofun, fun _ => h.geometry.live hst⟩
  ring := ⟨h.ring.size, h.ring.increase, fun _ => h.ring.preroll hst, fun _ => h.ring.playing hst⟩
  noise := ⟨h.noise.last, fun _ => h.noise.count hst⟩

/-! #### TRACK_UPDATE (R130 to R135) -/

theorem Channel.Good.countNote {p : Params} {m : SampleMemory} {c : Channel} (h : c.Good p m)
    (hst : c.state.pastStart = true) : (countNote c).Good p m := by
  unfold Machine.countNote
  split_ifs with hrun hzero
  · exact h.release hst
  · exact h.withControls (fun hs => absurd hs (EnvState.ne_none_of_pastStart hst)) h.outputs.start
      ⟨.inr (by show 1 ≤ c.noteLength - 1; omega), h.counters.sweepLen, h.counters.sweepCnt, h.counters.modDelay⟩
  · exact h

theorem Channel.Good.advanceManualSweep {p : Params} {m : SampleMemory} {c : Channel} (h : c.Good p m) :
    (advanceManualSweep c).Good p m := by
  unfold Machine.advanceManualSweep
  split_ifs with hrun
  · exact h.withControls (fun _ => rfl) h.outputs.start ⟨h.counters.noteLength, h.counters.sweepLen,
      .inr (by show ((c.sweep.sweepCnt + 1 : Nat) : Int) ≤ c.sweep.sweepLen + 1; omega), h.counters.modDelay⟩
  · exact h

theorem Channel.Good.lengthPart {p : Params} {m : SampleMemory} {c : Channel} (h : c.Good p m) :
    (lengthPart c).Good p m := by
  unfold Machine.lengthPart
  split_ifs with hst
  · exact h
  · exact (h.countNote (by simpa using hst)).advanceManualSweep

/-- A part that writes note registers, modulation operands and flags alone; with every flag raised it leaves every flag
raised (R132 to R135). -/
theorem Channel.Good.trackPart {p : Params} {m : SampleMemory} {c : Channel} (h : c.Good p m) {k : NoteRegs}
    {r : Modulation} {f : RecomputeFlags} (hr : r.modDelayCnt = c.mod.modDelayCnt)
    (hf : c.flags = allFlags → f = allFlags) : { c with note := k, mod := r, flags := f }.Good p m :=
  h.withControls (fun _ => rfl) (fun hs => hf (h.outputs.start hs))
    ⟨h.counters.noteLength, h.counters.sweepLen, h.counters.sweepCnt, hr ▸ h.counters.modDelay⟩

theorem Channel.Good.volumePart {p : Params} {m : SampleMemory} {c : Channel} (h : c.Good p m) (o : TrackOps) :
    (volumePart o c).Good p m :=
  h.trackPart rfl fun hf => by rw [hf]; rfl

theorem Channel.Good.panPart {p : Params} {m : SampleMemory} {c : Channel} (h : c.Good p m) (o : TrackOps) :
    (panPart o c).Good p m :=
  h.trackPart rfl fun hf => by rw [hf]; rfl

theorem Channel.Good.timerPart {p : Params} {m : SampleMemory} {c : Channel} (h : c.Good p m) (o : TrackOps) :
    (timerPart o c).Good p m :=
  h.trackPart rfl fun hf => by rw [hf]; rfl

theorem RecomputeFlags.setTarget_allFlags (t : ModType) : allFlags.setTarget t = allFlags := by cases t <;> rfl

theorem Channel.Good.modPart {p : Params} {m : SampleMemory} {c : Channel} (h : c.Good p m) (o : TrackOps)
    (t : ModType) : (modPart o t c).Good p m :=
  h.trackPart rfl fun hf => by simp [hf, RecomputeFlags.setTarget_allFlags]

/-- A step that runs only under a condition keeps what it keeps when it runs. -/
theorem holds_if {P : Channel → Prop} {c d : Channel} (b : Bool) (hd : P d) (hc : P c) : P (if b then d else c) := by
  cases b
  · exact hc
  · exact hd

theorem Channel.Good.trackParts {p : Params} {m : SampleMemory} {c : Channel} (h : c.Good p m) (f : BitVec 5)
    (o : TrackOps) (t : Option ModType) : (trackParts f o t c).Good p m := by
  have hlength := holds_if (f.getLsbD 0) h.lengthPart h
  have hvolume := holds_if (f.getLsbD 1) (hlength.volumePart o) hlength
  have hpan := holds_if (f.getLsbD 2) (hvolume.panPart o) hvolume
  have htimer := holds_if (f.getLsbD 3) (hpan.timerPart o) hpan
  cases t with
  | none => exact htimer
  | some t => exact holds_if (f.getLsbD 4) (htimer.modPart o t) htimer

/-- TRACK_UPDATE brings no channel past Start (R131). -/
theorem trackParts_pastStart (f : BitVec 5) (o : TrackOps) (t : Option ModType) (c : Channel)
    (h : (trackParts f o t c).state.pastStart = true) : c.state.pastStart = true := by
  rw [(trackParts_length f o t c).1] at h
  split_ifs at h
  · unfold lengthPart at h
    split_ifs at h with hst
    · exact h
    · simpa using hst
  · exact h

/-! #### UPDATE (R140 to R148, R160 to R172) -/

/-- A channel past Start on its way through UPDATE: everything a good channel keeps, except that the cached volume and
the timer may still wait for the recompute their flag asks for. -/
structure Channel.Live (p : Params) (m : SampleMemory) (c : Channel) : Prop where
  pastStart : c.state.pastStart = true
  owner     : ∃ t : BitVec 8, c.trackId = some t ∧ t.toNat < p.nTracks
  ampl      : c.AmplInRange p
  counters  : c.CountersInRange
  geometry  : c.GeometryValid
  ring      : c.RingTracksNote p m
  noise     : c.NoiseTracksPosition
  vol       : c.flags.updVol = true ∨ c.vol = linearVolume c.reg.volumeMul c.reg.volumeDiv
  timer     : c.flags.updTmr = true ∨
    1 ≤ c.reg.timer.toNat ∧ c.reg.timer.toNat ≤ 0xFFF0 ∧ 0 < c.reg.sampleIncrease

theorem Channel.Good.live {p : Params} {m : SampleMemory} {c : Channel} (h : c.Good p m)
    (hst : c.state.pastStart = true) : c.Live p m where
  pastStart := hst
  owner := h.owned.used (EnvState.ne_none_of_pastStart hst)
  ampl := h.ampl
  counters := h.counters
  geometry := h.geometry
  ring := h.ring
  noise := h.noise
  vol := .inr h.outputs.vol
  timer := .inr (h.outputs.timer hst)

/-- Once both flags are down, nothing waits any more. -/
theorem Channel.Live.good {p : Params} {m : SampleMemory} {c : Channel} (h : c.Live p m)
    (hvol : c.flags.updVol = false) (htmr : c.flags.updTmr = false) : c.Good p m where
  owned := ⟨fun hs => absurd hs (EnvState.ne_none_of_pastStart h.pastStart), fun _ => h.owner⟩
  ampl := h.ampl
  counters := h.counters
  outputs := ⟨h.vol.resolve_left (by simp [hvol]), fun hs => absurd hs (EnvState.ne_start_of_pastStart h.pastStart),
    fun _ => h.timer.resolve_left (by simp [htmr])⟩
  geometry := h.geometry
  ring := h.ring
  noise := h.noise

/-- The forced kill and the kill of a released note (R141, R146). -/
theorem Channel.Live.kill_below {p : Params} {m : SampleMemory} {c : Channel} (h : c.Live p m) {a : Int}
    (hle : a ≤ c.env.ampl) (hge : c.env.ampl - 65535 ≤ a) :
    (killAction p { c with env := { c.env with ampl := a } }).Good p m :=
  killAction_good m (hle.trans h.ampl.le_zero)
    (fun b hb hs => by
      have := (h.ampl.floor b hb hs).2 h.pastStart
      show b - 65535 ≤ a
      omega)
    ⟨h.counters.noteLength, h.counters.sweepLen, h.counters.sweepCnt, h.counters.modDelay⟩

/-- The Start action on a good channel: the live register is the checked snapshot, the amplitude AMPL_MIN, the ring
empty in pre-roll, and the flags TRIGGER_START raised are still up (R110, R142). -/
theorem Channel.Good.startAction_live {p : Params} {m : SampleMemory} {c : Channel} (h : c.Good p m) (hp : p.Valid)
    (hst : c.state = .start) : (startAction p c).Live p m := by
  obtain ⟨hrep, hpcm⟩ := h.geometry.pending hst
  have hflags := h.outputs.start hst
  have hmin := hp.amplMin_neg
  have hpreroll : (startAction p c).reg.samplePosition < 0 := by
    show (if crFormat c.pend.cr = .psg then p.prerollPsg else p.prerollPcm) < 0
    split_ifs
    · exact hp.preroll_psg
    · exact hp.preroll_pcm
  exact {
    pastStart := rfl
    owner := h.owned.used (by simp [hst])
    ampl := ⟨hmin.le, fun _ => ⟨le_refl _, hmin⟩, nofun, nofun,
      fun b hb _ => ⟨by show b - 65535 ≤ p.amplMin; omega, fun _ => hb⟩⟩
    counters := ⟨h.counters.noteLength, h.counters.sweepLen, h.counters.sweepCnt, h.counters.modDelay⟩
    geometry := ⟨nofun, fun _ => ⟨hrep, rfl, hpcm⟩⟩
    ring := ⟨List.length_replicate, le_refl _, fun _ _ _ => rfl, fun _ _ hpos => absurd hpos (not_le.mpr hpreroll)⟩
    noise := ⟨.inl rfl, fun _ _ => .inl rfl⟩
    vol := .inl (by simp [hflags, allFlags])
    timer := .inl (by simp [hflags, allFlags]) }

/-- The channel with its state and its amplitude written, as the envelope steps write them (R143 to R146). -/
def Channel.atLevel (c : Channel) (e : EnvState) (a : Int) : Channel :=
  { c with state := e, env := { c.env with ampl := a } }

/-- In a state past Start the range of an amplitude is its bounds of R26 and those of its state. -/
theorem Channel.Live.atLevel {p : Params} {m : SampleMemory} {c : Channel} (h : c.Live p m) {e : EnvState} {a : Int}
    (he : e.pastStart = true) (hle : a ≤ 0) (hattack : e = .attack → p.amplMin ≤ a ∧ a < 0)
    (hdecay : e = .decay → sustainEntry p c.env.sustainLvl.toNat ≤ a)
    (hsustain : e = .sustain → a = sustainEntry p c.env.sustainLvl.toNat)
    (hfloor : ∀ b : Int, b ≤ p.amplMin → (∀ i < 128, b ≤ sustainEntry p i) → b ≤ a) : (c.atLevel e a).Live p m where
  pastStart := he
  owner := h.owner
  ampl := ⟨hle, hattack, hdecay, hsustain, fun b hb hs =>
    ⟨by have := hfloor b hb hs; show b - 65535 ≤ a; omega, fun _ => hfloor b hb hs⟩⟩
  counters := ⟨h.counters.noteLength, h.counters.sweepLen, h.counters.sweepCnt, h.counters.modDelay⟩
  geometry := ⟨fun hs => absurd hs (EnvState.ne_start_of_pastStart he), fun _ => h.geometry.live h.pastStart⟩
  ring := ⟨h.ring.size, h.ring.increase, fun _ => h.ring.preroll h.pastStart, fun _ => h.ring.playing h.pastStart⟩
  noise := ⟨h.noise.last, fun _ => h.noise.count h.pastStart⟩
  vol := h.vol
  timer := h.timer

/-- AttackStep rises, into Decay at 0 (R143). -/
theorem Channel.Live.attackStep {p : Params} {m : SampleMemory} {c d : Channel} (h : c.Live p m) (hp : p.Valid)
    (hst : c.state = .attack) (hd : attackStep c = some d) : d.Live p m := by
  obtain ⟨hmin, hneg⟩ := h.ampl.attack hst
  obtain ⟨a, hrise, hle, -, ha⟩ := attackStep_completes c hneg
  obtain rfl := Option.some.inj (hd.symm.trans ha)
  split_ifs with hzero
  · exact h.atLevel rfl hle nofun (fun _ => hzero ▸ sustainEntry_le_zero hp _) nofun fun b hb _ => by omega
  · exact h.atLevel h.pastStart hle (fun _ => ⟨by omega, by omega⟩) (by simp [hst]) (by simp [hst])
      fun b hb _ => by omega

/-- DecayStep falls, into Sustain at the level (R144). -/
theorem Channel.Live.decayStep {p : Params} {m : SampleMemory} {c : Channel} (h : c.Live p m) (hp : p.Valid)
    (hst : c.state = .decay) : (decayStep p c).Live p m := by
  rcases decayStep_cases p c with ⟨-, e⟩ | ⟨hlevel, e⟩ <;> rw [e]
  · exact h.atLevel rfl (sustainEntry_le_zero hp _) nofun nofun (fun _ => rfl) fun b _ hs => hs _ (BitVec.isLt _)
  · have hrate := (unsignedOp_bounds c.env.decayRate).1
    have hle := h.ampl.le_zero
    refine h.atLevel h.pastStart (by omega) (by simp [hst]) (fun _ => hlevel.le) (by simp [hst]) fun b _ hs => ?_
    exact (hs _ (BitVec.isLt _)).trans hlevel.le

/-- ReleaseStep falls, and kills at the minimum (R146). -/
theorem Channel.Live.releaseStep {p : Params} {m : SampleMemory} {c : Channel} (h : c.Live p m)
    (hst : c.state = .release) : (releaseStep p c).Good p m ∧ (releaseStep p c).state = .none ∨
      (releaseStep p c).Live p m := by
  obtain ⟨hrate, hrate'⟩ := unsignedOp_bounds c.env.releaseRate
  have hle := h.ampl.le_zero
  rcases releaseStep_cases p c with ⟨-, e⟩ | ⟨hmin, e⟩ <;> rw [e]
  · exact .inl ⟨h.kill_below (by omega) (by omega), rfl⟩
  · exact .inr (h.atLevel h.pastStart (by omega) (by simp [hst]) (by simp [hst]) (by simp [hst])
      fun b hb _ => hb.trans hmin.le)

/-- The envelope step leaves a killed good channel or a live one (R142 to R146). -/
theorem Channel.Live.envelopeStep {p : Params} {m : SampleMemory} {c d : Channel} (h : c.Live p m) (hp : p.Valid)
    (hd : envelopeStep p c = some d) : d.Good p m ∧ d.state = .none ∨ d.Live p m := by
  unfold Machine.envelopeStep at hd
  split at hd <;> rename_i hst
  · exact absurd hst (EnvState.ne_none_of_pastStart h.pastStart)
  · exact absurd hst (EnvState.ne_start_of_pastStart h.pastStart)
  · exact .inr (h.attackStep hp hst hd)
  · cases hd; exact .inr (h.decayStep hp hst)
  · cases hd; exact .inr h
  · cases hd; exact h.releaseStep hst

/-- What the cascade writes: the output registers, the sweep counter, the modulation registers and the flags. -/
theorem Channel.Live.withOutputs {p : Params} {m : SampleMemory} {c : Channel} (h : c.Live p m) {mul : VolMul}
    {div : VolDiv} {pan : Pan} {tmr : BitVec 16} {inc : Rat} {w : Sweep} {r : Modulation} {f : RecomputeFlags} {v : Nat}
    (hcount : { c with sweep := w, mod := r }.CountersInRange) (hinc : 0 ≤ inc)
    (hvol : f.updVol = true ∨ v = linearVolume mul div)
    (htmr : f.updTmr = true ∨ 1 ≤ tmr.toNat ∧ tmr.toNat ≤ 0xFFF0 ∧ 0 < inc) :
    { c with
      reg := { c.reg with volumeMul := mul, volumeDiv := div, panning := pan, timer := tmr, sampleIncrease := inc }
      sweep := w, mod := r, flags := f, vol := v }.Live p m where
  pastStart := h.pastStart
  owner := h.owner
  ampl := ⟨h.ampl.le_zero, h.ampl.attack, h.ampl.decay, h.ampl.sustain, h.ampl.floor⟩
  counters := ⟨hcount.noteLength, hcount.sweepLen, hcount.sweepCnt, hcount.modDelay⟩
  geometry := ⟨h.geometry.pending, h.geometry.live⟩
  ring := ⟨h.ring.size, hinc, h.ring.preroll, h.ring.playing⟩
  noise := ⟨h.noise.last, h.noise.count⟩
  vol := hvol
  timer := htmr

/-- The delay counter of a modulation step stays within the 16 bits of the delay (R29, R161). -/
theorem modulationStep_modDelayCnt_le (p : Params) {r : Modulation} (h : r.modDelayCnt ≤ 65535) :
    (modulationStep p r).regs.modDelayCnt ≤ 65535 := by
  have := r.modDelay.isLt
  unfold modulationStep
  split_ifs
  · exact h
  · show r.modDelayCnt + 1 ≤ 65535
    omega
  · exact h

theorem Channel.Live.modulationStep {p : Params} {m : SampleMemory} {c : Channel} (h : c.Live p m) :
    { c with mod := (modulationStep p c.mod).regs }.Live p m :=
  h.withOutputs ⟨h.counters.noteLength, h.counters.sweepLen, h.counters.sweepCnt,
    modulationStep_modDelayCnt_le p h.counters.modDelay⟩ h.ring.increase h.vol h.timer

/-- The negated adjusted timer is a 16-bit word in 1..0xFFF0 (R166, R168). -/
theorem negatedTimer_range {t : Nat} (h : timerMin ≤ t ∧ t ≤ timerMax) :
    1 ≤ (BitVec.ofInt 16 (-(t : Int))).toNat ∧ (BitVec.ofInt 16 (-(t : Int))).toNat ≤ 0xFFF0 := by
  obtain ⟨hlo, hhi⟩ := h
  unfold timerMin at hlo
  unfold timerMax at hhi
  rw [BitVec.toNat_ofInt]
  omega

/-- With a rate set and a positive clock the position increment is positive (R168). -/
theorem incrementOf_pos {p : Params} (hp : p.Valid) {rate : BitVec 32} (hrate : rate ≠ 0) (t : BitVec 16) :
    0 < incrementOf p rate t := by
  have hclock : (0 : Rat) < p.clockRate := by exact_mod_cast hp.clockRate_pos
  have hr : (0 : Rat) < rate.toNat := by
    exact_mod_cast Nat.pos_of_ne_zero fun hz => hrate (BitVec.eq_of_toNat_eq hz)
  have ht : (0 : Rat) < 65536 - t.toNat := by
    have : (t.toNat : Rat) < 65536 := by exact_mod_cast t.isLt
    linarith
  unfold incrementOf
  positivity

/-- An active sweep that is not manual counts by one, up to one past its length (R160, R167). -/
theorem timerRecompute_sweep_ranges {c : Channel} (h : c.CountersInRange) {sweepOn : Bool}
    (hsweep : sweepOn = true → (c.sweep.sweepCnt : Int) ≤ c.sweep.sweepLen) (p : Params) (rate : BitVec 32)
    (modOn : Bool) (x : Int) {w : Sweep} (hw : w = (timerRecompute p rate sweepOn modOn x c).sweep) :
    -1 ≤ w.sweepLen ∧ (w.sweepCnt = 0 ∨ (w.sweepCnt : Int) ≤ w.sweepLen + 1) := by
  unfold timerRecompute at hw
  dsimp only at hw
  split_ifs at hw with hon <;> subst hw
  · have hcnt := hsweep (Bool.and_eq_true_iff.mp hon).1
    exact ⟨h.sweepLen, .inr (by push_cast; omega)⟩
  · exact ⟨h.sweepLen, h.sweepCnt⟩

theorem Channel.Live.timerRecompute {p : Params} {m : SampleMemory} {c : Channel} (h : c.Live p m) (hp : p.Valid)
    {rate : BitVec 32} (hrate : rate ≠ 0) {sweepOn : Bool}
    (hsweep : sweepOn = true → (c.sweep.sweepCnt : Int) ≤ c.sweep.sweepLen) (modOn : Bool) (x : Int) :
    (timerRecompute p rate sweepOn modOn x c).Live p m := by
  obtain ⟨hlen, hcnt⟩ := timerRecompute_sweep_ranges h.counters hsweep p rate modOn x rfl
  obtain ⟨hlo, hhi⟩ := negatedTimer_range
    (timerAdjust_clamped p c.note.baseTimer.toNat (pitchAdjustment c sweepOn modOn x))
  have hinc := incrementOf_pos hp hrate (BitVec.ofInt 16
    (-(timerAdjust p c.note.baseTimer.toNat (pitchAdjustment c sweepOn modOn x) : Int)))
  exact h.withOutputs ⟨h.counters.noteLength, hlen, hcnt, h.counters.modDelay⟩ hinc.le h.vol
    (.inr ⟨hlo, hhi, hinc⟩)

theorem Channel.Live.volumeRecompute {p : Params} {m : SampleMemory} {c : Channel} (h : c.Live p m) (modOn : Bool)
    (x : Int) : (volumeRecompute p modOn x c).Live p m :=
  h.withOutputs h.counters h.ring.increase (.inr rfl) h.timer

theorem Channel.Live.panRecompute {p : Params} {m : SampleMemory} {c : Channel} (h : c.Live p m) (modOn : Bool)
    (x : Int) : (panRecompute modOn x c).Live p m :=
  h.withOutputs h.counters h.ring.increase h.vol h.timer

/-- A flag stays up only where its own recompute was not needed (R165, R172). -/
theorem recomputeCascade_flags {p : Params} {c : Channel} {a : ModResult} (ha : modulationStep p c.mod = a)
    (rate : BitVec 32) (e : EnvState) (w : Bool) : (recomputeCascade p rate e w c).flags =
      ⟨c.flags.updVol && !volumeNeeded c.flags e a.active a.regs.modType,
        c.flags.updPan && !panNeeded c.flags a.active a.regs.modType,
        c.flags.updTmr && !timerNeeded c.flags w a.active a.regs.modType⟩ := by
  simp only [recomputeCascade, ha]
  split_ifs <;> simp [*, timerRecompute, volumeRecompute, panRecompute, RecomputeFlags.clearTmr,
    RecomputeFlags.clearVol, RecomputeFlags.clearPan]

/-- A raised flag is a need, so after the cascade neither the volume nor the timer waits any more (R165, R172). -/
theorem recomputeCascade_flags_down (p : Params) (rate : BitVec 32) (e : EnvState) (w : Bool) (c : Channel) :
    (recomputeCascade p rate e w c).flags.updVol = false ∧ (recomputeCascade p rate e w c).flags.updTmr = false := by
  rw [recomputeCascade_flags rfl]
  constructor
  · cases hv : c.flags.updVol <;> simp [volumeNeeded, hv]
  · cases ht : c.flags.updTmr <;> simp [timerNeeded, ht]

/-- The cascade brings a live channel back to a good one (R140, R165). -/
theorem Channel.Live.recomputeCascade {p : Params} {m : SampleMemory} {c : Channel} (h : c.Live p m) (hp : p.Valid)
    {rate : BitVec 32} (hrate : rate ≠ 0) (e : EnvState) :
    (recomputeCascade p rate e (sweepActive c.sweep) c).Good p m := by
  obtain ⟨hvol, htmr⟩ := recomputeCascade_flags_down p rate e (sweepActive c.sweep) c
  have hsweep : sweepActive c.sweep = true → (c.sweep.sweepCnt : Int) ≤ c.sweep.sweepLen :=
    fun hon => ((sweepActive_iff c.sweep).mp hon).2.2
  have hmod := h.modulationStep
  generalize ha : Machine.modulationStep p c.mod = a at hmod
  have htimer := holds_if (timerNeeded c.flags (sweepActive c.sweep) a.active a.regs.modType)
    (hmod.timerRecompute hp hrate hsweep a.active a.param) hmod
  have hvolume := holds_if (volumeNeeded c.flags e a.active a.regs.modType)
    (htimer.volumeRecompute a.active a.param) htimer
  have hpan := holds_if (panNeeded c.flags a.active a.regs.modType) (hvolume.panRecompute a.active a.param) hvolume
  subst ha
  exact Channel.Live.good hpan hvol htmr

/-- UPDATE starts a note by the Start action and then steps it as a note in Attack (R142). -/
theorem envelopeStep_of_start {p : Params} {c : Channel} (h : c.state = .start) :
    envelopeStep p c = envelopeStep p (startAction p c) := by
  unfold envelopeStep
  rw [h]
  rfl

/-- UPDATE of a channel that is not idle (R140, R141). -/
theorem Channel.Good.tick {p : Params} {m : SampleMemory} {c d : Channel} (h : c.Good p m) (hp : p.Valid)
    {rate : BitVec 32} (hrate : rate ≠ 0) (hst : c.state ≠ .none) (hd : tickChannel p rate c = some d) :
    d.Good p m := by
  unfold tickChannel at hd
  split_ifs at hd with hforced
  · cases hd; exact h.kill
  · cases he : envelopeStep p c with
    | none => simp [he] at hd
    | some c1 =>
      have hstep : c1.Good p m ∧ c1.state = .none ∨ c1.Live p m := by
        by_cases hpast : c.state.pastStart = true
        · exact (h.live hpast).envelopeStep hp he
        · have hstart := EnvState.eq_start_of_not_pastStart hst hpast
          exact (h.startAction_live hp hstart).envelopeStep hp (envelopeStep_of_start hstart ▸ he)
      simp only [he] at hd
      rcases hstep with ⟨hgood, hnone⟩ | hlive
      · rw [if_pos hnone] at hd; cases hd; exact hgood
      · have hne := EnvState.ne_none_of_pastStart hlive.pastStart
        have hsweep := (envelopeStep_keeps he hne).2.2.2.2.1
        rw [if_neg hne, ← hsweep] at hd; cases hd
        exact hlive.recomputeCascade hp hrate _

/-! #### GENERATE_SAMPLE and INCREMENT_SAMPLE (R190 to R199) -/

/-- The channel with the registers written that move while a note plays: the position, the noise registers and the
ring (R193, R194). -/
def Channel.withPlayback (c : Channel) (pos : Rat) (x : NoiseReg) (last : Int) (count : Nat) (r : Ring) : Channel :=
  { c with reg := { c.reg with samplePosition := pos, psgX := x, psgLast := last, psgLastCount := count }, ring := r }

/-- These registers may move as the ring invariant and the noise memo allow. -/
theorem Channel.Good.withPlayback {p : Params} {m : SampleMemory} {c : Channel} (h : c.Good p m) (hst : c.state ≠ .none)
    {pos : Rat} {x : NoiseReg} {last : Int} {count : Nat} {r : Ring}
    (hring : (c.withPlayback pos x last count r).RingTracksNote p m)
    (hnoise : (c.withPlayback pos x last count r).NoiseTracksPosition) :
    (c.withPlayback pos x last count r).Good p m where
  owned := ⟨fun hs => absurd hs hst, h.owned.used⟩
  ampl := ⟨h.ampl.le_zero, h.ampl.attack, h.ampl.decay, h.ampl.sustain, h.ampl.floor⟩
  counters := ⟨h.counters.noteLength, h.counters.sweepLen, h.counters.sweepCnt, h.counters.modDelay⟩
  outputs := ⟨h.outputs.vol, h.outputs.start, h.outputs.timer⟩
  geometry := ⟨h.geometry.pending, h.geometry.live⟩
  ring := hring
  noise := hnoise

/-- The noise output is one of its three values, whatever the number of steps (R193). -/
theorem noiseRun_psgLast (n : Nat) {r : Noise} (h : r.psgLast = 0 ∨ r.psgLast = noiseLo ∨ r.psgLast = noiseHi) :
    (noiseRun n r).psgLast = 0 ∨ (noiseRun n r).psgLast = noiseLo ∨ (noiseRun n r).psgLast = noiseHi := by
  induction n generalizing r with
  | zero => exact h
  | succ n ih =>
    refine ih (.inr ?_)
    unfold noiseStep
    split_ifs
    · exact .inl rfl
    · exact .inr rfl

/-- NoiseSample writes the three noise registers alone: the output is one of its values and the count is the integer
position (R193). -/
theorem noiseAdvance_writes {g : SoundRegister} (h : g.psgLast = 0 ∨ g.psgLast = noiseLo ∨ g.psgLast = noiseHi) :
    ∃ x last, noiseAdvance g =
        { g with psgX := x, psgLast := last, psgLastCount := (ratFloor g.samplePosition).toNat } ∧
      (last = 0 ∨ last = noiseLo ∨ last = noiseHi) := by
  unfold noiseAdvance
  dsimp only
  split_ifs with hsame
  · exact ⟨g.psgX, g.psgLast, by rw [← hsame], h⟩
  · exact ⟨_, _, rfl, noiseRun_psgLast _ h⟩

theorem Channel.Good.noiseAdvance {p : Params} {m : SampleMemory} {c : Channel} (h : c.Good p m)
    (hst : c.state ≠ .none) (hpos : 0 ≤ c.reg.samplePosition) : { c with reg := noiseAdvance c.reg }.Good p m := by
  obtain ⟨x, last, he, hlast⟩ := noiseAdvance_writes h.noise.last
  have hfloor := ratFloor_nonneg hpos
  rw [he]
  exact h.withPlayback hst ⟨h.ring.size, h.ring.increase, h.ring.preroll, h.ring.playing⟩
    ⟨hlast, fun _ _ => .inr (Int.toNat_of_nonneg hfloor).le⟩

/-- GENERATE_SAMPLE changes a channel by its noise path alone (R190). -/
theorem Channel.Good.generate {p : Params} {m : SampleMemory} {c : Channel} (h : c.Good p m) (mode : InterpMode)
    (ch : ChanId) : (generateChannel p mode m ch c).chan.Good p m := by
  unfold generateChannel
  split_ifs with hidle hneg hpcm hduty hnoise
  · exact h
  · exact h
  · exact h
  · exact h
  · exact h.noiseAdvance (fun hs => hidle (.inl hs)) (not_lt.mp hneg)
  · exact h

theorem Channel.Good.movedTo {p : Params} {m : SampleMemory} {c : Channel} (h : c.Good p m) (hst : c.state ≠ .none)
    {pos : Rat} {r : Ring} (hring : (c.movedTo pos r).RingTracksNote p m)
    (hpos : c.reg.format = .psg → c.reg.samplePosition ≤ pos) : (c.movedTo pos r).Good p m :=
  h.withPlayback hst hring ⟨h.noise.last, fun hpast hpsg =>
    (h.noise.count hpast hpsg).imp_right fun hc => hc.trans (ratFloor_mono (hpos hpsg))⟩

/-- INCREMENT_SAMPLE on a sounding channel (R194, R199). -/
theorem Channel.Good.increment {p : Params} {m : SampleMemory} {c d : Channel} (h : c.Good p m)
    (hst : c.state.pastStart = true) (hd : incrementChannel p m c = some d) : d.Good p m := by
  have hring := incrementChannel_ringTracksNote h.ring h.geometry hst hd
  have hne := EnvState.ne_none_of_pastStart hst
  rcases incrementChannel_cases rfl hd with ⟨-, rfl⟩ | ⟨hf, -, rfl⟩ | ⟨hf, -, -, -, rfl⟩ | ⟨-, -, -, rfl⟩
  · exact h.movedTo hne hring fun _ => le_add_of_nonneg_right h.ring.increase
  · exact h.movedTo hne hring fun hpsg => absurd hpsg hf
  · exact h.movedTo hne hring fun hpsg => absurd hpsg hf
  · exact h.kill

/-! ### States that stay good -/

theorem State.Good.setRes {s : State} (h : s.Good) (r : Word) : (s.setRes r).Good :=
  ⟨h.params, h.mem, ⟨h.gates.tables, h.gates.rate⟩, h.channels⟩

theorem State.Good.setCommands {s : State} (h : s.Good) (q : List Transaction) : { s with commands := q }.Good :=
  ⟨h.params, h.mem, ⟨h.gates.tables, h.gates.rate⟩, h.channels⟩

/-- The configuration commands close no gate that is open (R241, R243). -/
theorem State.Good.setCfg {s : State} (h : s.Good) {g : GlobalRegs}
    (htables : g.tablesReady = false → s.cfg.tablesReady = false) (hrate : g.sampleRate = 0 → s.cfg.sampleRate = 0) :
    (s.setCfg g).Good :=
  ⟨h.params, h.mem, ⟨fun hg => h.gates.tables (htables hg), fun hg => h.gates.rate (hrate hg)⟩, h.channels⟩

/-- Writing one good channel keeps the state good if no note starts behind the first gate and none gets past Start
behind the second (R241, R243). -/
theorem State.Good.setChan {s : State} (h : s.Good) (ch : ChanId) {c : Channel} (hc : c.Good s.params s.mem)
    (htables : c.state ≠ .none → s.cfg.tablesReady = true)
    (hrate : c.state.pastStart = true → (s.chan ch).state.pastStart = true ∨ s.cfg.sampleRate ≠ 0) :
    (s.setChan ch c).Good where
  params := h.params
  mem := h.mem
  gates := by
    refine ⟨fun hready d => ?_, fun hunset d => ?_⟩
    · by_cases hd : d = ch
      · subst hd
        rw [State.chan_setChan_same]
        by_contra hne
        simp [htables hne] at hready
      · rw [State.chan_setChan_ne s c hd]; exact h.gates.tables hready d
    · by_cases hd : d = ch
      · subst hd
        rw [State.chan_setChan_same]
        have hold := h.gates.rate hunset d
        by_contra hpast
        rcases hrate (by simpa using hpast) with hpast' | hset
        · simp [hold] at hpast'
        · exact hset hunset
      · rw [State.chan_setChan_ne s c hd]; exact h.gates.rate hunset d
  channels := by
    intro d
    by_cases hd : d = ch
    · subst hd; rw [State.chan_setChan_same]; exact hc
    · rw [State.chan_setChan_ne s c hd]; exact h.channels d

theorem generateChannel_state (p : Params) (mode : InterpMode) (m : SampleMemory) (ch : ChanId) (c : Channel) :
    (generateChannel p mode m ch c).chan.state = c.state := by
  unfold generateChannel
  split_ifs <;> rfl

/-- Every command that completes keeps a good state good. -/
theorem State.Good.exec {s t : State} (h : s.Good) {i : Instr} (hi : exec i s = .next t) : t.Good := by
  cases i with
  | nop => cases hi; exact h.setRes 0
  | initTables => cases hi; exact (h.setCfg (g := { s.cfg with tablesReady := true }) nofun id).setRes 0
  | setInterp mode =>
    obtain ⟨k, -, rfl⟩ := execSetInterp_next hi
    exact (h.setCfg (g := { s.cfg with interp := k }) id id).setRes 0
  | setRate rate =>
    obtain ⟨hrate, rfl⟩ := execSetRate_next hi
    exact (h.setCfg (g := { s.cfg with sampleRate := rate }) id fun hzero => absurd hzero hrate).setRes 0
  | triggerStart ch o =>
    obtain ⟨hready, hcheck, rfl⟩ := execTriggerStart_next hi
    exact (h.setChan ch ((h.channels ch).triggerLatch hcheck) (fun _ => hready) nofun).setRes 0
  | noteParams ch o =>
    obtain ⟨hready, hst, hne, hge, rfl⟩ := execNoteParams_next hi
    exact (h.setChan ch ((h.channels ch).noteLatch hst hne hge) (fun _ => hready) .inl).setRes 0
  | release ch =>
    obtain ⟨hready, hne, hns, rfl⟩ := execRelease_next hi
    have hpast : (s.chan ch).state.pastStart = true :=
      by_contra fun hpast => hns (EnvState.eq_start_of_not_pastStart hne hpast)
    exact (h.setChan ch ((h.channels ch).release hpast) (fun _ => hready) fun _ => .inl hpast).setRes 0
  | kill ch => cases hi; exact (h.setChan ch (h.channels ch).kill (absurd rfl) nofun).setRes 0
  | trackUpdate ch f o =>
    obtain ⟨hready, -, ⟨-, rfl⟩ | ⟨-, -, rfl⟩⟩ := execTrackUpdate_next hi
    · exact h.setRes 0
    · exact (h.setChan ch ((h.channels ch).trackParts f o _) (fun _ => hready)
        fun hpast => .inl (trackParts_pastStart f o _ _ hpast)).setRes 0
  | update ch =>
    obtain ⟨hready, ⟨-, rfl⟩ | ⟨hst, hrate, c, hc, rfl⟩⟩ := execUpdate_next hi
    · exact h.setRes 0
    · exact (h.setChan ch ((h.channels ch).tick h.params hrate hst hc) (fun _ => hready)
        fun _ => .inr hrate).setRes 0
  | generateSample ch =>
    obtain ⟨hready, rfl⟩ := execGenerateSample_next hi
    refine (h.setChan ch ((h.channels ch).generate _ ch) (fun _ => hready) fun hpast => .inl ?_).setRes _
    rwa [generateChannel_state] at hpast
  | incrementSample ch =>
    obtain ⟨hready, ⟨-, rfl⟩ | ⟨hpast, c, hc, rfl⟩⟩ := execIncrementSample_next hi
    · exact h.setRes 0
    · exact (h.setChan ch ((h.channels ch).increment hpast hc) (fun _ => hready) fun _ => .inl hpast).setRes 0
  | read ch sel => obtain ⟨r, -, rfl⟩ := execRead_next hi; exact h.setRes r

/-! ### The statements -/

/-- Settles O57: a step either does nothing or runs one command on the state with its transaction taken. -/
theorem everyStepKeepsTheStateGood : Obligations.EveryStepKeepsTheStateGood := by
  unfold Obligations.EveryStepKeepsTheStateGood
  intro s t h hstep
  rcases step_next_cases hstep with ⟨-, rfl⟩ | ⟨x, rest, i, -, -, hexec⟩
  · exact h
  · exact (h.setCommands rest).exec hexec

/-- Settles O59: every channel of the reset state is the reset channel, whose registers R40 lists. -/
theorem resetHoldsTheListedValues : Obligations.ResetHoldsTheListedValues := by
  unfold Obligations.ResetHoldsTheListedValues
  refine ⟨rfl, fun p => ⟨rfl, rfl, fun ch => ?_⟩⟩
  rw [State.chan_resetWith]
  rfl

/-- Settles O60: every channel is a reset channel, no buffer is placed, and the gates are closed on idle channels. -/
theorem resetIsGood : Obligations.ResetIsGood := by
  unfold Obligations.ResetIsGood
  intro p hp
  refine ⟨hp, resetWith_mem_wf p, ⟨fun _ ch => ?_, fun _ ch => ?_⟩, fun ch => ?_⟩
  · rw [State.chan_resetWith]; rfl
  · rw [State.chan_resetWith]; rfl
  · rw [State.chan_resetWith]; exact reset_good hp _

end Sys2Proof.Machine

/-! PROOFS. The statements of spec/20_memory.md: no step writes sample memory or a parameter, and a command writes
within its own channel or the configuration (R35, R65, R282). -/

namespace Sys2Proof.Machine

/-! ### What stands after a command: each form of `Written` read field by field -/

section
variable {i : Instr} {s t : State} (h : Written i s t)
include h

/-- No command writes a parameter (R6; log 4). -/
theorem Written.params_eq : t.params = s.params := by
  cases h with
  | resOnly _ h => rw [h, State.setRes_params]
  | config _ _ _ h => rw [h, State.setRes_params, State.setCfg_params]
  | channel _ _ _ _ h => rw [h, State.setRes_params, State.setChan_params]

/-- "The core never writes sample memory" (R65). -/
theorem Written.mem_eq : t.mem = s.mem := by
  cases h with
  | resOnly _ h => rw [h, State.setRes_mem]
  | config _ _ _ h => rw [h, State.setRes_mem, State.setCfg_mem]
  | channel _ _ _ _ h => rw [h, State.setRes_mem, State.setChan_mem]

/-- The host alone writes the command stream (R5; log 1). -/
theorem Written.commands_eq : t.commands = s.commands := by
  cases h with
  | resOnly _ h => rw [h, State.setRes_commands]
  | config _ _ _ h => rw [h, State.setRes_commands, State.setCfg_commands]
  | channel _ _ _ _ h => rw [h, State.setRes_commands, State.setChan_commands]

/-- A channel the command does not name stays as it is (R282). -/
theorem Written.chan_eq {d : ChanId} (hd : channelOf i ≠ some d) : t.chan d = s.chan d := by
  cases h with
  | resOnly _ h => rw [h, State.setRes_chan]
  | config _ _ _ h => rw [h, State.setRes_chan, State.setCfg_chan]
  | channel ch c _ hch h =>
    have hne : d ≠ ch := fun e => hd (e ▸ hch)
    rw [h, State.setRes_chan, State.chan_setChan_ne s c hne]

/-- A command on a channel only reads the configuration (R35, R282). -/
theorem Written.channelOf_of_cfg_ne (hcfg : t.cfg ≠ s.cfg) : channelOf i = none := by
  cases h with
  | resOnly _ h => exact absurd (by rw [h, State.setRes_cfg]) hcfg
  | config _ _ hi _ => exact hi
  | channel _ _ _ _ h => exact absurd (by rw [h, State.setRes_cfg, State.setChan_cfg]) hcfg

end

/-- The configuration is "read-only except by the three configuration commands" (R282): of the four global commands,
NOP alone keeps it. -/
theorem exec_writes_cfg {i : Instr} {s t : State} (h : exec i s = .next t) (hcfg : t.cfg ≠ s.cfg) :
    i = .initTables ∨ (∃ m, i = .setInterp m) ∨ ∃ r, i = .setRate r := by
  have hglobal := (exec_next_written h).channelOf_of_cfg_ne hcfg
  cases i with
  | nop => cases h; exact absurd rfl hcfg
  | initTables => exact .inl rfl
  | setInterp m => exact .inr (.inl ⟨m, rfl⟩)
  | setRate r => exact .inr (.inr ⟨r, rfl⟩)
  | _ => cases hglobal

/-- No step writes sample memory or a parameter: taking a transaction from the stream writes neither (R65, R80). -/
theorem step_keeps_mem_params {s t : State} (h : step s = .next t) : t.mem = s.mem ∧ t.params = s.params := by
  rcases step_next_cases h with ⟨-, rfl⟩ | ⟨x, rest, i, -, -, hexec⟩
  · exact ⟨rfl, rfl⟩
  · have hw := exec_next_written hexec
    exact ⟨hw.mem_eq, hw.params_eq⟩

/-- Settles O54, from what a completed command has written. -/
theorem commandsWriteOnlyTheirOwn : Obligations.CommandsWriteOnlyTheirOwn := by
  unfold Obligations.CommandsWriteOnlyTheirOwn
  refine ⟨fun _ _ => step_keeps_mem_params, fun i s t h => ?_⟩
  have hw := exec_next_written h
  exact ⟨hw.commands_eq, fun _ => hw.chan_eq, exec_writes_cfg h⟩

end Sys2Proof.Machine

/-! PROOFS. The statements of spec/30_encoding.md: the rows of the opcode table (R82, R83, R89), the operand fields
(R84), and the round trip through the encoder. -/

namespace Sys2Proof.Machine

/-! ### The rows of the opcode table -/

theorem matches_iff {r : OpcodeRow} {w : Word} : r.matches w = true ↔ w &&& r.mask = r.pattern := by
  simp [OpcodeRow.matches]

/-- "All masks include `0xFF000000`" (R89), so a word's opcode is that of the row it matches. -/
theorem cmdOpcode_of_matches {r : OpcodeRow} (hr : r ∈ opcodeTable) {w : Word} (h : r.matches w = true) :
    cmdOpcode w = cmdOpcode r.pattern := by
  have hmask : ∀ r ∈ opcodeTable, r.mask.extractLsb' 24 8 = BitVec.allOnes 8 := by decide
  rw [← matches_iff.mp h, cmdOpcode, cmdOpcode, BitVec.extractLsb'_and, hmask r hr, BitVec.and_allOnes]

/-- "The thirteen opcodes differ" (R89). -/
theorem opcodeTable_opcodes_ne : opcodeTable.Pairwise fun a b => cmdOpcode a.pattern ≠ cmdOpcode b.pattern := by
  decide

/-- "The thirteen (match, mask) pairs are pairwise disjoint" (R89). -/
theorem opcodeTable_disjoint :
    opcodeTable.Pairwise fun a b => ∀ w : Word, ¬ (a.matches w = true ∧ b.matches w = true) :=
  opcodeTable_opcodes_ne.imp_of_mem fun ha hb hne _ ⟨hma, hmb⟩ =>
    hne ((cmdOpcode_of_matches ha hma).symm.trans (cmdOpcode_of_matches hb hmb))

/-! ### The decoder as a scan of the table -/

/-- What a command word and the operand block read as, once the row is known. -/
abbrev Reader := Word → Vector Word 13 → Instr

/-- One arm of the decoder: a row of the table, and how its words are read. -/
structure Arm where
  row  : OpcodeRow
  read : Reader

/-- The decoder's readings (R83, R84), in the table's order. -/
def readers : List Reader :=
  [fun _ _ => .nop, fun _ _ => .initTables, fun w _ => .setInterp (w.extractLsb' 0 3), fun _ op => .setRate op[0],
   fun w op => .triggerStart (cmdChannel w) (triggerOpsOf op), fun w op => .noteParams (cmdChannel w) (noteOpsOf op),
   fun w _ => .release (cmdChannel w), fun w _ => .kill (cmdChannel w),
   fun w op => .trackUpdate (cmdChannel w) (w.extractLsb' 0 5) (trackOpsOf op), fun w _ => .update (cmdChannel w),
   fun w _ => .generateSample (cmdChannel w), fun w _ => .incrementSample (cmdChannel w),
   fun w _ => .read (cmdChannel w) (w.extractLsb' 0 4)]

/-- The thirteen arms: each row of the table with its reading. -/
def arms : List Arm := opcodeTable.zipWith Arm.mk readers

theorem arms_map_row : arms.map Arm.row = opcodeTable := rfl

/-- The reading of the first arm whose row matches. -/
def scan (l : List Arm) (x : Transaction) : Except DecodeError Instr :=
  l.foldr (fun a rest => if x.cmd &&& a.row.mask = a.row.pattern then .ok (a.read x.cmd x.op) else rest)
    (.error (rejectReason x.cmd))

/-- The decoder is the scan of its arms (R82). -/
theorem decode_eq_scan (x : Transaction) : decode x = scan arms x := rfl

theorem scan_cons_of_matches {a : Arm} {l : List Arm} {x : Transaction} (h : a.row.matches x.cmd = true) :
    scan (a :: l) x = .ok (a.read x.cmd x.op) :=
  if_pos (matches_iff.mp h)

theorem scan_cons_of_not_matches {a : Arm} {l : List Arm} {x : Transaction} (h : ¬ a.row.matches x.cmd = true) :
    scan (a :: l) x = scan l x :=
  if_neg fun hm => h (matches_iff.mpr hm)

/-- A scan finds a reading exactly when some row matches; the operands have no part in it. -/
theorem scan_ok_iff (l : List Arm) (x : Transaction) :
    (∃ i, scan l x = .ok i) ↔ ∃ a ∈ l, a.row.matches x.cmd = true := by
  induction l with
  | nil => simp [scan]
  | cons a l ih =>
    by_cases h : a.row.matches x.cmd = true
    · simp [scan_cons_of_matches h, h]
    · simp [scan_cons_of_not_matches h, ih, h]

/-- Over pairwise disjoint rows the order of a scan is immaterial: a matching arm gives the result. -/
theorem scan_of_mem {l : List Arm} {a : Arm} {x : Transaction}
    (hl : l.Pairwise fun a b => ∀ w : Word, ¬ (a.row.matches w = true ∧ b.row.matches w = true)) (ha : a ∈ l)
    (hm : a.row.matches x.cmd = true) : scan l x = .ok (a.read x.cmd x.op) := by
  induction hl with
  | nil => cases ha
  | cons hhead _ ih =>
    rcases List.mem_cons.mp ha with rfl | ha
    · exact scan_cons_of_matches hm
    · exact (scan_cons_of_not_matches fun hb => hhead a ha _ ⟨hb, hm⟩).trans (ih ha)

/-- Two transactions with one command word scan alike when each arm whose row matches it reads them alike. -/
theorem scan_congr {l : List Arm} {w : Word} {op op' : Vector Word 13}
    (h : ∀ a ∈ l, a.row.matches w = true → a.read w op = a.read w op') : scan l ⟨w, op⟩ = scan l ⟨w, op'⟩ := by
  induction l with
  | nil => rfl
  | cons a l ih =>
    by_cases hm : a.row.matches w = true
    · rw [scan_cons_of_matches hm, scan_cons_of_matches hm, h a List.mem_cons_self hm]
    · rw [scan_cons_of_not_matches hm, scan_cons_of_not_matches hm, ih fun b hb => h b (List.mem_cons_of_mem a hb)]

theorem arms_disjoint :
    arms.Pairwise fun a b => ∀ w : Word, ¬ (a.row.matches w = true ∧ b.row.matches w = true) :=
  List.pairwise_map.mp (arms_map_row ▸ opcodeTable_disjoint)

theorem row_mem_opcodeTable {a : Arm} (ha : a ∈ arms) : a.row ∈ opcodeTable :=
  arms_map_row ▸ List.mem_map_of_mem ha

/-- A word that matches a row is read as that row's command (R82). -/
theorem decode_of_matches {a : Arm} {x : Transaction} (ha : a ∈ arms) (hm : a.row.matches x.cmd = true) :
    decode x = .ok (a.read x.cmd x.op) :=
  (decode_eq_scan x).trans (scan_of_mem arms_disjoint ha hm)

/-- The decoder accepts a transaction exactly when some row matches its command word (R82, R88). -/
theorem decode_ok_iff (x : Transaction) : (∃ i, decode x = .ok i) ↔ ∃ r ∈ opcodeTable, r.matches x.cmd = true := by
  simp only [← arms_map_row, List.mem_map, exists_exists_and_eq_and]
  exact scan_ok_iff arms x

/-! ### The operand bits a command names -/

/-- `op` and `op'` agree in the low bits of the operand fields the command with this opcode names (R84). -/
def AgreeInFields (opcode : BitVec 8) (op op' : Vector Word 13) : Prop :=
  ∀ k : Fin 13, op[k].toNat % 2 ^ (operandWidths opcode).getD k 0 = op'[k].toNat % 2 ^ (operandWidths opcode).getD k 0

/-- Words that agree in their low `n` bits have the same field of width `n`. -/
theorem setWidth_eq_of_mod_eq {w w' : Word} {n : Nat} (h : w.toNat % 2 ^ n = w'.toNat % 2 ^ n) :
    w.setWidth n = w'.setWidth n :=
  BitVec.eq_of_toNat_eq (by rw [BitVec.toNat_setWidth, BitVec.toNat_setWidth, h])

/-- A field as wide as its word is the word. -/
theorem eq_of_mod_eq {w w' : Word} (h : w.toNat % 2 ^ 32 = w'.toNat % 2 ^ 32) : w = w' := by
  simpa only [BitVec.setWidth_eq] using setWidth_eq_of_mod_eq h

/-- A field of one bit, read as a flag. -/
theorem getLsbD_zero_eq_of_mod_eq {w w' : Word} (h : w.toNat % 2 ^ 1 = w'.toNat % 2 ^ 1) :
    w.getLsbD 0 = w'.getLsbD 0 := by
  simpa using congrArg (BitVec.getLsbD · 0) (setWidth_eq_of_mod_eq h)

theorem triggerOpsOf_congr {op op' : Vector Word 13} (h : AgreeInFields 0x10 op op') :
    triggerOpsOf op = triggerOpsOf op' := by
  simp only [triggerOpsOf, TriggerOps.mk.injEq]
  exact ⟨eq_of_mod_eq (h 0), eq_of_mod_eq (h 1), setWidth_eq_of_mod_eq (h 2), eq_of_mod_eq (h 3), eq_of_mod_eq (h 4),
    setWidth_eq_of_mod_eq (h 5), setWidth_eq_of_mod_eq (h 6), setWidth_eq_of_mod_eq (h 7),
    setWidth_eq_of_mod_eq (h 8), setWidth_eq_of_mod_eq (h 9), setWidth_eq_of_mod_eq (h 10),
    setWidth_eq_of_mod_eq (h 11), setWidth_eq_of_mod_eq (h 12)⟩

theorem noteOpsOf_congr {op op' : Vector Word 13} (h : AgreeInFields 0x11 op op') : noteOpsOf op = noteOpsOf op' := by
  simp only [noteOpsOf, NoteOps.mk.injEq]
  exact ⟨eq_of_mod_eq (h 0), setWidth_eq_of_mod_eq (h 1), setWidth_eq_of_mod_eq (h 2),
    getLsbD_zero_eq_of_mod_eq (h 3), setWidth_eq_of_mod_eq (h 4), setWidth_eq_of_mod_eq (h 5),
    setWidth_eq_of_mod_eq (h 6)⟩

theorem trackOpsOf_congr {op op' : Vector Word 13} (h : AgreeInFields 0x20 op op') :
    trackOpsOf op = trackOpsOf op' := by
  simp only [trackOpsOf, TrackOps.mk.injEq]
  exact ⟨setWidth_eq_of_mod_eq (h 0), setWidth_eq_of_mod_eq (h 1), setWidth_eq_of_mod_eq (h 2),
    setWidth_eq_of_mod_eq (h 3), setWidth_eq_of_mod_eq (h 4), setWidth_eq_of_mod_eq (h 5),
    setWidth_eq_of_mod_eq (h 6), setWidth_eq_of_mod_eq (h 7), setWidth_eq_of_mod_eq (h 8),
    setWidth_eq_of_mod_eq (h 9), setWidth_eq_of_mod_eq (h 10), setWidth_eq_of_mod_eq (h 11)⟩

/-- An arm reads of the operand block only the fields its command names. -/
def Arm.ReadsNamedFields (a : Arm) : Prop :=
  ∀ w op op', AgreeInFields (cmdOpcode a.row.pattern) op op' → a.read w op = a.read w op'

/-- Four commands take operands (R84); the others read the command word alone. -/
theorem arms_readNamedFields : ∀ a ∈ arms, a.ReadsNamedFields :=
  List.forall_iff_forall_mem.mp
    ⟨fun _ _ _ _ => rfl, fun _ _ _ _ => rfl, fun _ _ _ _ => rfl,
     fun _ _ _ h => congrArg Instr.setRate (eq_of_mod_eq (h 0)),
     fun _ _ _ h => congrArg (Instr.triggerStart _) (triggerOpsOf_congr h),
     fun _ _ _ h => congrArg (Instr.noteParams _) (noteOpsOf_congr h),
     fun _ _ _ _ => rfl, fun _ _ _ _ => rfl,
     fun _ _ _ h => congrArg (Instr.trackUpdate _ _) (trackOpsOf_congr h),
     fun _ _ _ _ => rfl, fun _ _ _ _ => rfl, fun _ _ _ _ => rfl, fun _ _ _ _ => rfl⟩

/-- Operand words a command does not name, and the bits above a field, are ignored (R80, R84). -/
theorem decode_congr {w : Word} {op op' : Vector Word 13} (h : AgreeInFields (cmdOpcode w) op op') :
    decode ⟨w, op⟩ = decode ⟨w, op'⟩ :=
  scan_congr (l := arms) fun a ha hm =>
    arms_readNamedFields a ha w op op' (cmdOpcode_of_matches (row_mem_opcodeTable ha) hm ▸ h)

/-- Settles O2: the opcodes of the rows differ, the decoder scans the rows, and each row reads its own fields. -/
theorem decoderFollowsTheOpcodeTable : Obligations.DecoderFollowsTheOpcodeTable := by
  unfold Obligations.DecoderFollowsTheOpcodeTable
  refine ⟨opcodeTable_disjoint, decode_ok_iff, fun ⟨w, op⟩ ⟨w', op'⟩ hcmd h => ?_⟩
  obtain rfl : w = w' := hcmd
  exact decode_congr h

/-! ### The round trip -/

/-- The channel field of a command word (R81). -/
@[simp] theorem cmdChannel_cmdWord (opcode : BitVec 8) (ch : ChanId) (imm : BitVec 16) :
    cmdChannel (cmdWord opcode ch imm) = ch := by
  rw [cmdChannel, cmdWord, BitVec.extractLsb'_append_eq_of_le (by decide)]
  exact BitVec.extractLsb'_append_eq_right

/-- The used bits of the immediate of a command word (R81, R82). -/
theorem extractLsb'_cmdWord (opcode : BitVec 8) (ch : ChanId) {n : Nat} (imm : BitVec n) (hn : 0 + n ≤ 16) :
    (cmdWord opcode ch (imm.setWidth 16)).extractLsb' 0 n = imm := by
  rw [cmdWord, BitVec.extractLsb'_append_eq_of_add_le hn, BitVec.extractLsb'_setWidth_of_le hn,
    BitVec.extractLsb'_eq_self]

theorem triggerOpsOf_encode (ch : ChanId) (ops : TriggerOps) :
    triggerOpsOf (encode (.triggerStart ch ops)).op = ops := by
  simp [triggerOpsOf, encode]

theorem noteOpsOf_encode (ch : ChanId) (ops : NoteOps) : noteOpsOf (encode (.noteParams ch ops)).op = ops := by
  simp [noteOpsOf, encode]

theorem trackOpsOf_encode (ch : ChanId) (flags : BitVec 5) (ops : TrackOps) :
    trackOpsOf (encode (.trackUpdate ch flags ops)).op = ops := by
  simp [trackOpsOf, encode]

/-- The encoded command word matches the instruction's row alone (R89). -/
theorem encode_matches_own_row (i : Instr) : Laws.EncodeMatches.Statement i := by
  cases i with
  | nop => exact Laws.EncodeMatches.nop
  | initTables => exact Laws.EncodeMatches.initTables
  | setInterp mode => exact Laws.EncodeMatches.setInterp mode
  | setRate rate => exact Laws.EncodeMatches.setRate rate
  | triggerStart ch ops => exact Laws.EncodeMatches.triggerStart ch ops
  | noteParams ch ops => exact Laws.EncodeMatches.noteParams ch ops
  | release ch => exact Laws.EncodeMatches.release ch
  | kill ch => exact Laws.EncodeMatches.kill ch
  | trackUpdate ch flags ops => exact Laws.EncodeMatches.trackUpdate ch flags ops
  | update ch => exact Laws.EncodeMatches.update ch
  | generateSample ch => exact Laws.EncodeMatches.generateSample ch
  | incrementSample ch => exact Laws.EncodeMatches.incrementSample ch
  | read ch sel => exact Laws.EncodeMatches.read ch sel

theorem opcodeTable_mnemonics_nodup : (opcodeTable.map OpcodeRow.mnemonic).Nodup := by decide

/-- A row with the instruction's mnemonic matches the encoded command word. -/
theorem matches_encode {r : OpcodeRow} {i : Instr} (hr : r ∈ opcodeTable)
    (h : r.mnemonic = Laws.EncodeMatches.mnemonic i) : r.matches (encode i).cmd = true := by
  have hown : r.mnemonic ∈ (opcodeTable.filter fun r => r.matches (encode i).cmd).map OpcodeRow.mnemonic := by
    rw [encode_matches_own_row i, h]; exact List.mem_singleton_self _
  obtain ⟨r', hr', hname⟩ := List.mem_map.mp hown
  obtain ⟨hmem, hmatch⟩ := List.mem_filter.mp hr'
  exact List.inj_on_of_nodup_map opcodeTable_mnemonics_nodup hmem hr hname ▸ hmatch

/-- An instruction comes back from the decoder when the arm of its mnemonic reads it back. -/
theorem decode_encode_of_read {i : Instr} {a : Arm}
    (ha : arms.find? (fun a => a.row.mnemonic = Laws.EncodeMatches.mnemonic i) = some a)
    (hread : a.read (encode i).cmd (encode i).op = i) : decode (encode i) = .ok i := by
  have hmem : a ∈ arms := List.mem_of_find?_eq_some ha
  have hname : a.row.mnemonic = Laws.EncodeMatches.mnemonic i := by simpa using List.find?_some ha
  rw [decode_of_matches hmem (matches_encode (row_mem_opcodeTable hmem) hname), hread]

/-- Settles O1: the encoded word matches the instruction's own row, and that row's reading gives every field back. -/
theorem decodeEncodeRoundTrip : Obligations.DecodeEncodeRoundTrip := by
  unfold Obligations.DecodeEncodeRoundTrip
  intro i
  cases i with
  | nop => exact decode_encode_of_read rfl rfl
  | initTables => exact decode_encode_of_read rfl rfl
  | setInterp mode =>
    exact decode_encode_of_read rfl (congrArg Instr.setInterp (extractLsb'_cmdWord _ _ mode (by decide)))
  | setRate rate => exact decode_encode_of_read rfl rfl
  | triggerStart ch ops =>
    exact decode_encode_of_read rfl
      (congrArg₂ Instr.triggerStart (cmdChannel_cmdWord _ ch _) (triggerOpsOf_encode ch ops))
  | noteParams ch ops =>
    exact decode_encode_of_read rfl (congrArg₂ Instr.noteParams (cmdChannel_cmdWord _ ch _) (noteOpsOf_encode ch ops))
  | release ch => exact decode_encode_of_read rfl (congrArg Instr.release (cmdChannel_cmdWord _ ch _))
  | kill ch => exact decode_encode_of_read rfl (congrArg Instr.kill (cmdChannel_cmdWord _ ch _))
  | trackUpdate ch flags ops =>
    have hfields := congrArg₂ Instr.trackUpdate (cmdChannel_cmdWord 0x20 ch (flags.setWidth 16))
      (extractLsb'_cmdWord 0x20 ch flags (by decide))
    exact decode_encode_of_read rfl (congr hfields (trackOpsOf_encode ch flags ops))
  | update ch => exact decode_encode_of_read rfl (congrArg Instr.update (cmdChannel_cmdWord _ ch _))
  | generateSample ch => exact decode_encode_of_read rfl (congrArg Instr.generateSample (cmdChannel_cmdWord _ ch _))
  | incrementSample ch => exact decode_encode_of_read rfl (congrArg Instr.incrementSample (cmdChannel_cmdWord _ ch _))
  | read ch sel =>
    exact decode_encode_of_read rfl
      (congrArg₂ Instr.read (cmdChannel_cmdWord _ ch _) (extractLsb'_cmdWord _ _ sel (by decide)))

/-- Settles O3, by running the decoder on the six words of T1 and T2. -/
theorem specWordsDecode : Obligations.SpecWordsDecode := by
  unfold Obligations.SpecWordsDecode
  decide

end Sys2Proof.Machine

/-! PROOFS. The statements of spec/40_lifecycle.md: what an accepted lifecycle command writes (R110 to R114), how a
channel's state moves (R116), and that a started note forgets its channel's past (R110, D11). -/

namespace Sys2Proof.Machine

/-! ### Accepted commands: the converses of the inversion lemmas -/

theorem repeatModeOf_eq_reserved_iff (b : BitVec 2) : repeatModeOf b = .reserved ↔ b = 3#2 := by
  revert b; decide

theorem repeatModeOf_eq_loop_iff (b : BitVec 2) : repeatModeOf b = .loop ↔ b = 1#2 := by
  revert b; decide

theorem formatOf_eq_psg_iff (b : BitVec 2) : formatOf b = .psg ↔ b = 3#2 := by
  revert b; decide

/-- R110's conditions in the terms of the control word's decoded fields. -/
theorem triggerAccepted_iff (p : Params) (o : TriggerOps) :
    triggerAccepted p o ↔ crRepeatMode o.cr ≠ .reserved ∧ o.trackId.toNat < p.nTracks ∧ (crFormat o.cr ≠ .psg →
      o.source ≠ 0 ∧ 0 < o.repeatPoint.toNat + o.length.toNat ∧
        (crRepeatMode o.cr = .loop → 0 < o.length.toNat)) := by
  simp only [triggerAccepted, crRepeatMode, crFormat, ne_eq, repeatModeOf_eq_reserved_iff, repeatModeOf_eq_loop_iff,
    formatOf_eq_psg_iff]

/-- The operand checks of TRIGGER_START pass exactly under R110's conditions (F6, F7, F8). -/
theorem triggerCheck_eq_none_iff (p : Params) (o : TriggerOps) :
    triggerCheck p o = none ↔ triggerAccepted p o := by
  rw [triggerAccepted_iff]
  refine ⟨triggerCheck_accepts, fun ⟨hrep, htrack, hpcm⟩ => ?_⟩
  rw [triggerCheck, if_neg hrep, if_neg (not_le.mpr htrack)]
  split_ifs with hpsg hsrc hlen hloop
  · rfl
  · exact absurd hsrc (hpcm hpsg).1
  · exact absurd hlen (hpcm hpsg).2.1.ne'
  · exact absurd hloop.2 ((hpcm hpsg).2.2 hloop.1).ne'
  · rfl

theorem execTriggerStart_of_accepted {ch : ChanId} {o : TriggerOps} {s : State} (hready : s.cfg.tablesReady = true)
    (hcheck : triggerCheck s.params o = none) :
    execTriggerStart ch o s = s.complete ch (triggerLatch (s.chan ch) o) 0 := by
  simp [execTriggerStart, hready, hcheck]

theorem execNoteParams_of_accepted {ch : ChanId} {o : NoteOps} {s : State} (hready : s.cfg.tablesReady = true)
    (hst : (s.chan ch).state ≠ .none) (hne : signedOp o.noteLength ≠ 0) (hge : -1 ≤ signedOp o.noteLength) :
    execNoteParams ch o s = s.complete ch (noteLatch (s.chan ch) o) 0 := by
  have hlen : ¬ (signedOp o.noteLength = 0 ∨ signedOp o.noteLength < lenInfinite) := by
    unfold lenInfinite; omega
  simp [execNoteParams, hready, hst, hlen]

theorem execRelease_of_sounding {ch : ChanId} {s : State} (hready : s.cfg.tablesReady = true)
    (hpast : (s.chan ch).state.pastStart = true) :
    execRelease ch s = s.complete ch (releaseAction (s.chan ch)) 0 := by
  simp [execRelease, hready, EnvState.ne_none_of_pastStart hpast, EnvState.ne_start_of_pastStart hpast]

theorem execTrackUpdate_of_owned {ch : ChanId} {f : BitVec 5} {o : TrackOps} {s : State}
    (hready : s.cfg.tablesReady = true) (hmod : f.getLsbD 4 = true → modTypeOf o.modType ≠ none)
    (howner : (s.chan ch).trackId ≠ none) (hf : f ≠ 0) :
    execTrackUpdate ch f o s = s.complete ch (trackParts f o (modTypeOf o.modType) (s.chan ch)) 0 := by
  have hmod' : ¬ (f.getLsbD 4 = true ∧ modTypeOf o.modType = none) := fun h => hmod h.1 h.2
  have heffect : ¬ ((s.chan ch).trackId = none ∨ f = 0#5) := not_or.mpr ⟨howner, hf⟩
  rw [execTrackUpdate, if_neg (by simp [hready]), if_neg hmod', if_neg heffect]

theorem execTrackUpdate_of_no_effect {ch : ChanId} {f : BitVec 5} {o : TrackOps} {s : State}
    (hready : s.cfg.tablesReady = true) (hmod : f.getLsbD 4 = true → modTypeOf o.modType ≠ none)
    (hno : (s.chan ch).trackId = none ∨ f = 0) : execTrackUpdate ch f o s = .next (s.setRes 0) := by
  have hmod' : ¬ (f.getLsbD 4 = true ∧ modTypeOf o.modType = none) := fun h => hmod h.1 h.2
  rw [execTrackUpdate, if_neg (by simp [hready]), if_neg hmod']
  exact if_pos hno

theorem execUpdate_of_tick {ch : ChanId} {s : State} {c : Channel} (hready : s.cfg.tablesReady = true)
    (hst : (s.chan ch).state ≠ .none) (hrate : s.cfg.sampleRate ≠ 0#32)
    (htick : tickChannel s.params s.cfg.sampleRate (s.chan ch) = some c) :
    execUpdate ch s = s.complete ch c 0 := by
  rw [execUpdate, if_neg (by simp [hready]), if_neg hst, if_neg hrate, htick]

/-! ### TRIGGER_START, NOTE_PARAMS, RELEASE and KILL (R110 to R114) -/

/-- Settles O10: an accepted TRIGGER_START completes with its latched channel. -/
theorem triggerStartLatchesTheNote : Obligations.TriggerStartLatchesTheNote := by
  unfold Obligations.TriggerStartLatchesTheNote
  intro ch o s hready haccept
  refine ⟨_, execTriggerStart_of_accepted hready ((triggerCheck_eq_none_iff ..).mpr haccept), rfl,
    s.sameExcept_complete .., ?_⟩
  rw [State.setRes_chan, State.chan_setChan_same]
  rfl

/-- Without portamento the sweep is the base displacement with length 0 (R112 (a)). -/
theorem sweepSetup_disabled (key : BitVec 8) (n : Int) (pk pt : BitVec 8) (b : BitVec 16) :
    sweepSetup key n false pk pt b = ⟨0, 0, b.toInt, false⟩ := rfl

/-- The displacement of a portamento, from its key to the note's own (R112). -/
def portaPitch (key pk : BitVec 8) (b : BitVec 16) : Int := b.toInt + ((pk.toNat : Int) - (key.toNat : Int)) * 64

/-- A portamento of time 0 is manual and lasts as long as the note (R112 (b)). -/
theorem sweepSetup_manual (key : BitVec 8) (n : Int) (pk : BitVec 8) (b : BitVec 16) :
    sweepSetup key n true pk 0 b = ⟨n, 0, portaPitch key pk b, true⟩ := rfl

/-- A portamento with a time is automatic, and its length grows with the displacement and the square of the time
(R112 (c)). -/
theorem sweepSetup_automatic (key : BitVec 8) (n : Int) (pk : BitVec 8) {pt : BitVec 8} (b : BitVec 16) (h : pt ≠ 0) :
    sweepSetup key n true pk pt b =
      ⟨((portaPitch key pk b).natAbs : Int) * (pt.toNat : Int) * (pt.toNat : Int) / 2048, 0, portaPitch key pk b,
        false⟩ := by
  rw [sweepSetup, if_neg (by decide)]
  exact if_neg h

/-- Settles O11: an accepted NOTE_PARAMS completes with the sweep of R112's three forms. -/
theorem noteParamsLoadsTheNote : Obligations.NoteParamsLoadsTheNote := by
  unfold Obligations.NoteParamsLoadsTheNote
  intro ch o s hready hst hne hge
  refine ⟨_, sweepSetup (s.chan ch).note.key o.noteLength.toInt o.portaEnable o.portaKey o.portaTime o.sweepBase,
    execNoteParams_of_accepted hready hst hne hge, rfl, s.sameExcept_complete .., ?_, (sweepSetup_ranges _ hge ..).2,
    fun hoff => ?_, fun hon => ?_⟩
  · rw [State.setRes_chan, State.chan_setChan_same]
    rfl
  · rw [hoff, sweepSetup_disabled]
    exact ⟨rfl, rfl, rfl⟩
  · by_cases htime : o.portaTime = 0
    · rw [hon, htime, sweepSetup_manual]
      exact ⟨rfl, fun _ => ⟨rfl, rfl⟩, absurd rfl⟩
    · rw [hon, sweepSetup_automatic _ _ _ _ htime]
      exact ⟨rfl, fun hzero => absurd hzero htime, fun _ => ⟨rfl, rfl⟩⟩

/-- Settles O13, from the two checks of RELEASE and ReleaseAction's writes. -/
theorem releaseEntersTheReleasePhase : Obligations.ReleaseEntersTheReleasePhase := by
  unfold Obligations.ReleaseEntersTheReleasePhase
  refine fun ch s => ⟨fun hgate => if_pos hgate, fun hready hidle => ?_, fun hready hpast => ?_⟩
  · show execRelease ch s = _
    rw [execRelease, if_neg (by simp [hready]), if_pos hidle]
  · refine ⟨_, execRelease_of_sounding hready hpast, rfl, s.sameExcept_complete .., ?_⟩
    rw [State.setRes_chan, State.chan_setChan_same]
    rfl

/-- KillAction makes the writes of R114 and no others. -/
theorem killAction_killedFrom (p : Params) (c : Channel) : c.killedFrom p (killAction p c) :=
  ⟨rfl, rfl, rfl, rfl, rfl, rfl, rfl, rfl, rfl, rfl, rfl, rfl, rfl⟩

/-- KILL of a channel just killed changes nothing (R114). -/
theorem execKill_of_killed (ch : ChanId) (s : State) (c : Channel) :
    execKill ch ((s.setChan ch (killAction s.params c)).setRes 0) =
      .next ((s.setChan ch (killAction s.params c)).setRes 0) := by
  rw [execKill, State.complete_eq, State.setChan_setRes_comm, State.setRes_setRes, State.setRes_params,
    State.setChan_params, State.setRes_chan, State.chan_setChan_same, killAction_idem, State.setChan_setChan]

/-- Settles O14: KILL always completes with KillAction, which is idempotent. -/
theorem killClearsTheChannel : Obligations.KillClearsTheChannel := by
  unfold Obligations.KillClearsTheChannel
  intro ch s
  refine ⟨_, s.complete_eq .., rfl, s.sameExcept_complete .., ?_, ?_, execKill_of_killed ..⟩
  · rw [State.setRes_chan, State.chan_setChan_same]
    exact killAction_killedFrom ..
  · rw [State.setRes_chan, State.chan_setChan_same, killAction_env]

/-- The fields READ can select are those of a reset channel once the channel is killed (R40, R41, R114). -/
theorem readField_killAction (p q : Params) (c : Channel) (sel : BitVec 4) :
    readField (killAction p c) sel = readField (Channel.reset q) sel := rfl

/-- The selectors up to 4 name a field (R87, R244). -/
theorem readField_of_le_four (c : Channel) {sel : BitVec 4} (h : sel.toNat ≤ 4) : ∃ r, readField c sel = some r := by
  have hsel : sel = 0#4 ∨ sel = 1#4 ∨ sel = 2#4 ∨ sel = 3#4 ∨ sel = 4#4 := by
    revert sel; decide
  rcases hsel with rfl | rfl | rfl | rfl | rfl <;> exact ⟨_, rfl⟩

theorem execRead_of_field {ch : ChanId} {sel : BitVec 4} {s : State} {r : Word}
    (h : readField (s.chan ch) sel = some r) : execRead ch sel s = .next (s.setRes r) := by
  rw [execRead, h]

/-- Settles O15: READ sees a killed channel as a reset one. -/
theorem killRestoresTheVisibleResetState : Obligations.KillRestoresTheVisibleResetState := by
  unfold Obligations.KillRestoresTheVisibleResetState
  intro ch s t sel hkill hsel
  obtain ⟨r, hr⟩ := readField_of_le_four (Channel.reset referenceParams) hsel
  cases hkill
  refine ⟨_, _, execRead_of_field (r := r) ?_, execRead_of_field (r := r) ?_, rfl⟩
  · rwa [State.setRes_chan, State.chan_setChan_same, readField_killAction s.params referenceParams]
  · rwa [State.reset, State.chan_resetWith]

/-! ### The sweep (R112, R160, R167) -/

/-- The size of the interpolated displacement: division truncated toward zero keeps sizes. -/
theorem natAbs_sweepDelta (w : Sweep) :
    (sweepDelta w).natAbs = w.sweepPitch.natAbs * (w.sweepLen - w.sweepCnt).natAbs / w.sweepLen.natAbs := by
  rw [sweepDelta, tdiv, Int.natAbs_tdiv, Int.natAbs_mul]
  rfl

/-- The closer the counter is to the length, the smaller the displacement (R167). -/
theorem natAbs_sweepDelta_le {w w' : Sweep} (hpitch : w'.sweepPitch = w.sweepPitch) (hlen : w'.sweepLen = w.sweepLen)
    (h : (w'.sweepLen - w'.sweepCnt).natAbs ≤ (w.sweepLen - w.sweepCnt).natAbs) :
    (sweepDelta w').natAbs ≤ (sweepDelta w).natAbs := by
  rw [natAbs_sweepDelta, natAbs_sweepDelta, hpitch, show w'.sweepLen.natAbs = w.sweepLen.natAbs by rw [hlen]]
  exact Nat.div_le_div_right (Nat.mul_le_mul_left _ h)

/-- A sweep starts displaced by its whole pitch (R167). -/
theorem sweepDelta_of_start {w : Sweep} (hlen : 0 < w.sweepLen) (hcnt : w.sweepCnt = 0) :
    sweepDelta w = w.sweepPitch := by
  rw [sweepDelta, tdiv, hcnt, Nat.cast_zero, sub_zero, Int.mul_tdiv_cancel _ hlen.ne']

/-- At its length a sweep has reached the note's own key (R167). -/
theorem sweepDelta_of_end {w : Sweep} (hcnt : (w.sweepCnt : Int) = w.sweepLen) : sweepDelta w = 0 := by
  rw [sweepDelta, tdiv, hcnt, sub_self, mul_zero, Int.zero_tdiv]

/-- Settles O12: R112 (a) has length 0 and (b) length −1, and otherwise the displacement's size falls with the distance
from the counter to the length. -/
theorem sweepGlidesToItsOwnKey : Obligations.SweepGlidesToItsOwnKey := by
  unfold Obligations.SweepGlidesToItsOwnKey
  refine ⟨fun key porta time base n => ?_, fun key porta base => ?_, fun w hlen =>
    ⟨sweepDelta_of_start hlen, sweepDelta_of_end, fun hcnt => ⟨natAbs_sweepDelta_le rfl rfl ?_, ?_⟩⟩⟩
  · rw [sweepSetup_disabled]
    simp [sweepActive]
  · rw [sweepSetup_manual]
    simp [sweepActive]
  · push_cast
    omega
  · have hbound := natAbs_sweepDelta_le (w := { w with sweepCnt := 0 }) (w' := w) rfl rfl (by push_cast; omega)
    rwa [sweepDelta_of_start (w := { w with sweepCnt := 0 }) hlen rfl] at hbound

/-! ### How a channel's state moves (R116, R147) -/

/-- AttackStep writes the amplitude, and enters Decay where it is 0 (R143). -/
theorem attackStep_eq_some {c d : Channel} (h : attackStep c = some d) :
    ∃ a, d = c.atLevel (if a = 0 then .decay else c.state) a := by
  unfold attackStep at h
  split at h
  · cases h
  · rename_i a _
    cases h
    refine ⟨a, ?_⟩
    split_ifs <;> rfl

/-- UPDATE's rows of the lifecycle table that the envelope step brings about (R116, R147), each with its cause. -/
def EnvelopeMove (p : Params) (c d : Channel) : Prop :=
  (c.state = .start ∧ d.state = .attack ∧ d.env.ampl ≠ 0) ∨
  ((c.state = .start ∨ c.state = .attack) ∧ d.state = .decay ∧ d.env.ampl = 0) ∨
  (c.state = .decay ∧ d.state = .sustain ∧ d.env.ampl = sustainEntry p c.env.sustainLvl.toNat ∧
    c.env.ampl - (c.env.decayRate.toNat : Int) ≤ sustainEntry p c.env.sustainLvl.toNat) ∨
  (c.state = .release ∧ d.state = .none ∧ c.env.ampl - (c.env.releaseRate.toNat : Int) ≤ p.amplMin)

/-- The envelope step changes the state by those rows alone. -/
theorem envelopeStep_moves {p : Params} {c d : Channel} (h : envelopeStep p c = some d) (hne : d.state ≠ c.state) :
    EnvelopeMove p c d := by
  unfold envelopeStep at h
  split at h <;> rename_i hst
  · cases h; exact absurd rfl hne
  · obtain ⟨a, rfl⟩ := attackStep_eq_some h
    by_cases ha : a = 0
    · exact .inr (.inl ⟨.inl hst, if_pos ha, ha⟩)
    · exact .inl ⟨hst, if_neg ha, ha⟩
  · obtain ⟨a, rfl⟩ := attackStep_eq_some h
    by_cases ha : a = 0
    · exact .inr (.inl ⟨.inr hst, if_pos ha, ha⟩)
    · exact absurd (if_neg ha) hne
  · cases h
    rcases decayStep_cases p c with ⟨hlevel, e⟩ | ⟨-, e⟩ <;> rw [e] at hne ⊢
    · exact .inr (.inr (.inl ⟨hst, rfl, rfl, hlevel⟩))
    · exact absurd rfl hne
  · cases h; exact absurd rfl hne
  · cases h
    rcases releaseStep_cases p c with ⟨hmin, e⟩ | ⟨-, e⟩ <;> rw [e] at hne ⊢
    · exact .inr (.inr (.inr ⟨hst, rfl, hmin⟩))
    · exact absurd rfl hne

/-- UPDATE changes the state by the envelope step or by the forced kill (R140, R141): the cascade writes neither the
state nor the envelope. -/
theorem tickChannel_moves {p : Params} {rate : BitVec 32} {c d : Channel} (h : tickChannel p rate c = some d)
    (hne : d.state ≠ c.state) :
    EnvelopeMove p c d ∨ (c.state.pastStart = true ∧ c.reg.enable = false ∧ d.state = .none) := by
  unfold tickChannel at h
  split_ifs at h with hforced
  · cases h; exact .inr ⟨hforced.1, hforced.2, rfl⟩
  · cases he : envelopeStep p c with
    | none => simp [he] at h
    | some c1 =>
      simp only [he] at h
      split_ifs at h
      · cases h; exact .inl (envelopeStep_moves he hne)
      · cases h
        rw [recomputeCascade_state] at hne
        have hmove := envelopeStep_moves he hne
        simp only [EnvelopeMove, recomputeCascade_state, recomputeCascade_env]
        exact .inl hmove

/-- A state past Start that is not Release is one of the three in which a note sounds (R21). -/
theorem EnvState.mem_of_pastStart {e : EnvState} (h : e.pastStart = true) (hne : e ≠ .release) :
    e ∈ [EnvState.attack, .decay, .sustain] := by
  cases e with
  | none | start => cases h
  | attack | decay | sustain => decide
  | release => exact absurd rfl hne

/-- The length part changes the state only where the countdown ends (R131). -/
theorem lengthPart_moves {c : Channel} (hne : (lengthPart c).state ≠ c.state) :
    c.state ∈ [EnvState.attack, .decay, .sustain] ∧ (lengthPart c).state = .release ∧ c.noteLength = 1 := by
  have hstate : (lengthPart c).state = if c.state.pastStart = false then c.state else (countNote c).state := by
    unfold lengthPart advanceManualSweep
    split_ifs <;> rfl
  rw [hstate] at hne ⊢
  unfold countNote at hne ⊢
  split_ifs at hne ⊢ with hpast hcounts hlast
  · exact absurd rfl hne
  · exact ⟨EnvState.mem_of_pastStart (by simpa using hpast) hcounts.1, rfl, by omega⟩
  · exact absurd rfl hne
  · exact absurd rfl hne

/-- TRACK_UPDATE changes the state only in its length part (R130, R131). -/
theorem trackParts_moves {f : BitVec 5} {o : TrackOps} {t : Option ModType} {c : Channel}
    (hne : (trackParts f o t c).state ≠ c.state) :
    c.state ∈ [EnvState.attack, .decay, .sustain] ∧ (trackParts f o t c).state = .release ∧ f.getLsbD 0 = true ∧
      c.noteLength = 1 := by
  rw [(trackParts_length f o t c).1] at hne ⊢
  split_ifs at hne ⊢ with hlen
  · obtain ⟨hmem, hrel, hone⟩ := lengthPart_moves hne
    exact ⟨hmem, hrel, hlen, hone⟩
  · exact absurd rfl hne

/-- INCREMENT_SAMPLE changes the state only at the end of data that does not loop (R199). -/
theorem incrementChannel_moves {p : Params} {m : SampleMemory} {c d : Channel} (h : incrementChannel p m c = some d)
    (hne : d.state ≠ c.state) :
    d.state = .none ∧ c.reg.format ≠ .psg ∧ c.reg.repeatMode ≠ .loop ∧
      (c.reg.totalLength : Rat) ≤ c.reg.samplePosition + c.reg.sampleIncrease := by
  rcases incrementChannel_cases rfl h with ⟨-, rfl⟩ | ⟨-, -, rfl⟩ | ⟨-, -, -, -, rfl⟩ | ⟨hpcm, hend, hloop, rfl⟩
  · exact absurd rfl hne
  · exact absurd rfl hne
  · exact absurd rfl hne
  · exact ⟨rfl, hpcm, hloop, hend⟩

/-- Settles O28: a command changes only its own channel, and each command's own lemma names its rows of the table. -/
theorem onlyTheListedEventsChangeTheState : Obligations.OnlyTheListedEventsChangeTheState := by
  unfold Obligations.OnlyTheListedEventsChangeTheState
  dsimp only
  intro i s t ch hexec hne
  have hch : channelOf i = some ch := by
    by_contra hother
    exact hne (by rw [(exec_next_written hexec).chan_eq hother])
  cases i with
  | nop => cases hch
  | initTables => cases hch
  | setInterp => cases hch
  | setRate => cases hch
  | triggerStart _ o =>
    cases hch
    obtain ⟨-, -, rfl⟩ := execTriggerStart_next hexec
    exact .inl ⟨o, rfl, by rw [State.setRes_chan, State.chan_setChan_same]; rfl⟩
  | noteParams _ o =>
    cases hch
    obtain ⟨-, -, -, -, rfl⟩ := execNoteParams_next hexec
    exact absurd (by simp) hne
  | release =>
    cases hch
    obtain ⟨-, hidle, hstart, rfl⟩ := execRelease_next hexec
    rw [State.setRes_chan, State.chan_setChan_same] at hne ⊢
    have hpast : (s.chan ch).state.pastStart = true :=
      by_contra fun hpast => hstart (EnvState.eq_start_of_not_pastStart hidle hpast)
    exact .inr (.inr (.inl ⟨rfl, EnvState.mem_of_pastStart hpast hne.symm, rfl⟩))
  | kill =>
    cases hch; cases hexec
    exact .inr (.inl ⟨rfl, by rw [State.setRes_chan, State.chan_setChan_same, killAction_state]⟩)
  | trackUpdate _ f o =>
    cases hch
    obtain ⟨-, -, ⟨-, rfl⟩ | ⟨-, -, rfl⟩⟩ := execTrackUpdate_next hexec
    · exact absurd rfl hne
    · rw [State.setRes_chan, State.chan_setChan_same] at hne ⊢
      exact .inr (.inr (.inr (.inl ⟨f, o, rfl, trackParts_moves hne⟩)))
  | update =>
    cases hch
    obtain ⟨-, ⟨-, rfl⟩ | ⟨-, -, c, hc, rfl⟩⟩ := execUpdate_next hexec
    · exact absurd rfl hne
    · rw [State.setRes_chan, State.chan_setChan_same] at hne ⊢
      have hmoves := tickChannel_moves hc hne
      simp only [EnvelopeMove, or_assoc] at hmoves
      exact .inr (.inr (.inr (.inr (.inl ⟨rfl, hmoves⟩))))
  | generateSample =>
    cases hch
    obtain ⟨-, rfl⟩ := execGenerateSample_next hexec
    exact absurd (by simp [generateChannel_state]) hne
  | incrementSample =>
    cases hch
    obtain ⟨-, ⟨-, rfl⟩ | ⟨hpast, c, hc, rfl⟩⟩ := execIncrementSample_next hexec
    · exact absurd rfl hne
    · rw [State.setRes_chan, State.chan_setChan_same] at hne ⊢
      exact .inr (.inr (.inr (.inr (.inr ⟨rfl, hpast, incrementChannel_moves hc hne⟩))))
  | read _ sel =>
    cases hch
    obtain ⟨r, -, rfl⟩ := execRead_next hexec
    exact absurd rfl hne

/-! ### A note and the past of its channel (R110 with D11, R115, R142)

TRIGGER_START leaves the live register, the amplitude, the base timer, the cached volume and the ring as they were.
NOTE_PARAMS and TRACK_UPDATE in Start neither read nor write them, and the first UPDATE writes them all before it reads
any. -/

/-- The channel `c` with the registers that TRIGGER_START leaves as they were taken from `past`. -/
def Channel.withPastOf (c past : Channel) : Channel :=
  { c with
    reg := past.reg
    env := { c.env with ampl := past.env.ampl }
    note := { c.note with baseTimer := past.note.baseTimer }
    vol := past.vol
    ring := past.ring }

theorem triggerLatch_eq_withPastOf (c past : Channel) (o : TriggerOps) :
    triggerLatch past o = (triggerLatch c o).withPastOf past := rfl

theorem noteLatch_withPastOf (c past : Channel) (o : NoteOps) :
    noteLatch (c.withPastOf past) o = (noteLatch c o).withPastOf past := rfl

theorem volumePart_withPastOf (o : TrackOps) (c past : Channel) :
    volumePart o (c.withPastOf past) = (volumePart o c).withPastOf past := rfl

theorem panPart_withPastOf (o : TrackOps) (c past : Channel) :
    panPart o (c.withPastOf past) = (panPart o c).withPastOf past := rfl

theorem timerPart_withPastOf (o : TrackOps) (c past : Channel) :
    timerPart o (c.withPastOf past) = (timerPart o c).withPastOf past := rfl

theorem modPart_withPastOf (o : TrackOps) (t : ModType) (c past : Channel) :
    modPart o t (c.withPastOf past) = (modPart o t c).withPastOf past := rfl

theorem ite_withPastOf (b : Bool) (c d past : Channel) :
    (if b then c.withPastOf past else d.withPastOf past) = (if b then c else d).withPastOf past :=
  (apply_ite (Channel.withPastOf · past) _ c d).symm

/-- The length is not counted in Start (R131). -/
theorem lengthPart_of_start {c : Channel} (h : c.state = .start) : lengthPart c = c :=
  if_pos (by rw [h]; rfl)

theorem trackParts_withPastOf (f : BitVec 5) (o : TrackOps) (t : Option ModType) {c : Channel} (past : Channel)
    (h : c.state = .start) : trackParts f o t (c.withPastOf past) = (trackParts f o t c).withPastOf past := by
  have hpast : lengthPart (c.withPastOf past) = c.withPastOf past := lengthPart_of_start h
  simp only [trackParts, lengthPart_of_start h, hpast, ite_self, volumePart_withPastOf, panPart_withPastOf,
    timerPart_withPastOf, ite_withPastOf]
  cases t with
  | none => rfl
  | some t => simp only [modPart_withPastOf, ite_withPastOf]

theorem trackParts_state_of_start (f : BitVec 5) (o : TrackOps) (t : Option ModType) {c : Channel}
    (h : c.state = .start) : (trackParts f o t c).state = .start := by
  rw [(trackParts_length f o t c).1, lengthPart_of_start h, ite_self, h]

/-- The first UPDATE of a note: the Start action, one attack step, and the cascade (R140, R142). -/
theorem tickChannel_of_start (p : Params) (rate : BitVec 32) {c : Channel} (h : c.state = .start) :
    tickChannel p rate c =
      (attackStep (startAction p c)).map (recomputeCascade p rate .start (sweepActive c.sweep)) := by
  have hforced : ¬ (c.state.pastStart = true ∧ c.reg.enable = false) := by simp [h, EnvState.pastStart]
  have hstep : envelopeStep p c = attackStep (startAction p c) := by rw [envelopeStep, h]
  rw [tickChannel, if_neg hforced, hstep, h]
  cases hattack : attackStep (startAction p c) with
  | none => rfl
  | some d =>
    obtain ⟨a, rfl⟩ := attackStep_eq_some hattack
    have halive : ((startAction p c).atLevel (if a = 0 then .decay else (startAction p c).state) a).state ≠ .none := by
      show (if a = 0 then EnvState.decay else EnvState.attack) ≠ .none
      split_ifs <;> decide
    exact if_neg halive

/-- The attack step does not look at the cached volume. -/
theorem attackStep_withVol (c : Channel) (v : Nat) :
    attackStep { c with vol := v } = (attackStep c).map fun d => { d with vol := v } := by
  unfold attackStep
  dsimp only
  split
  · rfl
  · split_ifs <;> rfl

/-- The first UPDATE recomputes the cached volume, whatever it was (R165, R169). -/
theorem recomputeCascade_withVol_of_start (p : Params) (rate : BitVec 32) (w : Bool) (c : Channel) (v : Nat) :
    recomputeCascade p rate .start w { c with vol := v } = recomputeCascade p rate .start w c := by
  have hneed (f : RecomputeFlags) (a : Bool) (t : ModType) : volumeNeeded f .start a t = true := by
    simp [volumeNeeded]
  unfold recomputeCascade
  simp only [hneed, if_true]
  split_ifs <;> rfl

/-- The first UPDATE of a note does not depend on the registers TRIGGER_START left as they were. -/
theorem tickChannel_withPastOf (p : Params) (rate : BitVec 32) {c : Channel} (past : Channel) (h : c.state = .start) :
    tickChannel p rate (c.withPastOf past) = tickChannel p rate c := by
  have hstart : startAction p (c.withPastOf past) = { startAction p c with vol := past.vol } := rfl
  have hpast : (c.withPastOf past).state = .start := h
  rw [tickChannel_of_start p rate h, tickChannel_of_start p rate hpast, hstart, attackStep_withVol, Option.map_map]
  congr 1
  funext d
  exact recomputeCascade_withVol_of_start ..

/-- Two states in which channel `ch` waits in Start with the same note, whatever it held before. -/
structure SameNote (ch : ChanId) (s s' : State) : Prop where
  params : s'.params = s.params
  cfg    : s'.cfg = s.cfg
  start  : (s.chan ch).state = .start
  chan   : ∃ past, s'.chan ch = (s.chan ch).withPastOf past

/-- Writing the channel and RES in both states. -/
theorem SameNote.of_write {ch : ChanId} {s s' : State} (hparams : s'.params = s.params) (hcfg : s'.cfg = s.cfg)
    {c : Channel} (past : Channel) (hstart : c.state = .start) (r : Word) :
    SameNote ch ((s.setChan ch c).setRes r) ((s'.setChan ch (c.withPastOf past)).setRes r) where
  params := hparams
  cfg := hcfg
  start := by rw [State.setRes_chan, State.chan_setChan_same, hstart]
  chan := ⟨past, by simp⟩

/-- TRIGGER_START makes the notes the same. -/
theorem SameNote.of_triggerStart {ch : ChanId} {o : TriggerOps} {s s' t : State} (hparams : s.params = s'.params)
    (hcfg : s.cfg = s'.cfg) (h : exec (.triggerStart ch o) s = .next t) :
    ∃ t', exec (.triggerStart ch o) s' = .next t' ∧ SameNote ch t t' := by
  obtain ⟨hready, hcheck, rfl⟩ := execTriggerStart_next h
  refine ⟨_, execTriggerStart_of_accepted (hcfg ▸ hready) (hparams ▸ hcheck), ?_⟩
  rw [triggerLatch_eq_withPastOf (s.chan ch) (s'.chan ch)]
  exact .of_write hparams.symm hcfg.symm _ rfl 0

section
variable {ch : ChanId} {s s' t : State} (h : SameNote ch s s')
include h

theorem SameNote.noteParams {o : NoteOps} (hexec : exec (.noteParams ch o) s = .next t) :
    ∃ t', exec (.noteParams ch o) s' = .next t' ∧ SameNote ch t t' := by
  obtain ⟨past, hchan⟩ := h.chan
  obtain ⟨hready, hst, hne, hge, rfl⟩ := execNoteParams_next hexec
  refine ⟨_, execNoteParams_of_accepted (h.cfg ▸ hready) (hchan ▸ hst) hne hge, ?_⟩
  rw [hchan, noteLatch_withPastOf]
  exact .of_write (c := noteLatch (s.chan ch) o) h.params h.cfg past h.start 0

theorem SameNote.trackUpdate {f : BitVec 5} {o : TrackOps} (hexec : exec (.trackUpdate ch f o) s = .next t) :
    ∃ t', exec (.trackUpdate ch f o) s' = .next t' ∧ SameNote ch t t' := by
  obtain ⟨past, hchan⟩ := h.chan
  obtain ⟨hready, hmod, ⟨hno, rfl⟩ | ⟨howner, hf, rfl⟩⟩ := execTrackUpdate_next hexec
  · refine ⟨_, execTrackUpdate_of_no_effect (h.cfg ▸ hready) hmod (hchan ▸ hno), ?_⟩
    exact ⟨h.params, h.cfg, h.start, h.chan⟩
  · refine ⟨_, execTrackUpdate_of_owned (h.cfg ▸ hready) hmod (hchan ▸ howner) hf, ?_⟩
    rw [hchan, trackParts_withPastOf f o _ past h.start]
    exact .of_write h.params h.cfg past (trackParts_state_of_start f o _ h.start) 0

theorem SameNote.update (hexec : exec (.update ch) s = .next t) :
    ∃ t', exec (.update ch) s' = .next t' ∧ t'.chan ch = t.chan ch := by
  obtain ⟨past, hchan⟩ := h.chan
  obtain ⟨hready, ⟨hidle, -⟩ | ⟨hst, hrate, c, htick, rfl⟩⟩ := execUpdate_next hexec
  · exact absurd (h.start.symm.trans hidle) (by decide)
  · have htick' : tickChannel s'.params s'.cfg.sampleRate (s'.chan ch) = some c := by
      rw [h.params, h.cfg, hchan, tickChannel_withPastOf _ _ past h.start, htick]
    exact ⟨_, execUpdate_of_tick (h.cfg ▸ hready) (hchan ▸ hst) (h.cfg ▸ hrate) htick', by simp⟩

theorem SameNote.setUp {i : Instr} (hi : setsUpNote ch i) (hexec : exec i s = .next t) :
    ∃ t', exec i s' = .next t' ∧ SameNote ch t t' := by
  rcases hi with ⟨o, rfl⟩ | ⟨f, o, rfl⟩
  · exact h.noteParams hexec
  · exact h.trackUpdate hexec

end

/-- A list that completes has completed its first command and then the rest. -/
theorem runCommands_cons_next {i : Instr} {rest : List Instr} {s t : State} :
    runCommands (i :: rest) s = .next t ↔ ∃ u, exec i s = .next u ∧ runCommands rest u = .next t := by
  rw [runCommands]
  cases exec i s with
  | next u => simp
  | fault r => simp
  | refused r => simp

/-- The set-up commands and the first UPDATE, by induction on the set-up commands. -/
theorem SameNote.run {ch : ChanId} {between : List Instr} (hset : ∀ i ∈ between, setsUpNote ch i) {s s' t : State}
    (h : SameNote ch s s') (hrun : runCommands (between ++ [.update ch]) s = .next t) :
    ∃ t', runCommands (between ++ [.update ch]) s' = .next t' ∧ t'.chan ch = t.chan ch := by
  induction between generalizing s s' with
  | nil =>
    obtain ⟨u, hu, hnil⟩ := runCommands_cons_next.mp hrun
    cases hnil
    obtain ⟨t', ht', hsame⟩ := h.update hu
    exact ⟨t', runCommands_cons_next.mpr ⟨t', ht', rfl⟩, hsame⟩
  | cons i rest ih =>
    obtain ⟨u, hu, hrest⟩ := runCommands_cons_next.mp hrun
    obtain ⟨u', hu', hsame⟩ := h.setUp (hset i List.mem_cons_self) hu
    obtain ⟨t', ht', hchan⟩ := ih (fun j hj => hset j (List.mem_cons_of_mem i hj)) hsame hrest
    exact ⟨t', runCommands_cons_next.mpr ⟨u', hu', ht'⟩, hchan⟩

/-- Settles O16: TRIGGER_START makes the notes the same, and the commands up to the first UPDATE keep them so. -/
theorem noteForgetsThePreviousNote : Obligations.NoteForgetsThePreviousNote := by
  unfold Obligations.NoteForgetsThePreviousNote
  intro ch o between s s' t hparams hcfg hset hrun
  obtain ⟨u, hu, hrest⟩ := runCommands_cons_next.mp hrun
  obtain ⟨u', hu', hsame⟩ := SameNote.of_triggerStart hparams hcfg hu
  obtain ⟨t', ht', hchan⟩ := hsame.run hset hrest
  exact ⟨t', runCommands_cons_next.mpr ⟨u', hu', ht'⟩, hchan⟩

end Sys2Proof.Machine

/-! PROOFS. The statements of spec/41_track_update.md: when TRACK_UPDATE is refused or does nothing (R130), and what
its length part (R131), its other four parts (R132 to R135) and all five together (R136) write and leave. -/

namespace Sys2Proof.Machine

/-! ### Refusal and no effect (R130) -/

theorem modTypeOf_eq_none_iff (b : BitVec 2) : modTypeOf b = none ↔ b = 3#2 := by
  revert b; decide

/-- The type an accepted code names (R87). -/
theorem modTypeOf_of_ne_reserved {b : BitVec 2} (h : b ≠ 3#2) :
    modTypeOf b = some (if b = 0#2 then .pitch else if b = 1#2 then .volume else .pan) := by
  revert b; decide

/-- R130's condition in the terms of the decoded modulation type. -/
theorem modType_named_of_accepted {f : BitVec 5} {o : TrackOps} (h : ¬ (f.getLsbD 4 = true ∧ o.modType = 3#2)) :
    f.getLsbD 4 = true → modTypeOf o.modType ≠ none :=
  fun hf hnone => h ⟨hf, (modTypeOf_eq_none_iff _).mp hnone⟩

theorem execTrackUpdate_of_reserved {ch : ChanId} {f : BitVec 5} {o : TrackOps} {s : State}
    (hready : s.cfg.tablesReady = true) (hf : f.getLsbD 4 = true) (hmod : o.modType = 3#2) :
    execTrackUpdate ch f o s = .refused .reservedModType := by
  have hres : f.getLsbD 4 = true ∧ modTypeOf o.modType = none := ⟨hf, (modTypeOf_eq_none_iff _).mpr hmod⟩
  rw [execTrackUpdate, if_neg (by simp [hready]), if_pos hres]

/-- Settles O17: the refusal is checked first, then the two cases without effect. -/
theorem trackUpdateWithoutOwnerHasNoEffect : Obligations.TrackUpdateWithoutOwnerHasNoEffect := by
  unfold Obligations.TrackUpdateWithoutOwnerHasNoEffect
  exact fun ch f o s hready => ⟨fun ⟨hf, hmod⟩ => execTrackUpdate_of_reserved hready hf hmod,
    fun haccept => execTrackUpdate_of_no_effect hready (modType_named_of_accepted haccept)⟩

/-! ### The length part (R131) -/

@[simp] theorem countNote_sweep (c : Channel) : (countNote c).sweep = c.sweep := by
  unfold countNote; split_ifs <;> rfl

/-- The sweep advance touches only the sweep counter. -/
theorem advanceManualSweep_keeps (c : Channel) :
    (advanceManualSweep c).state = c.state ∧ (advanceManualSweep c).prio = c.prio ∧
      (advanceManualSweep c).noteLength = c.noteLength := by
  unfold advanceManualSweep; split_ifs <;> exact ⟨rfl, rfl, rfl⟩

theorem advanceManualSweep_sweep (c : Channel) :
    (advanceManualSweep c).sweep = { c.sweep with
      sweepCnt := if c.sweep.manualSweep = true ∧ (c.sweep.sweepCnt : Int) < c.sweep.sweepLen
        then c.sweep.sweepCnt + 1 else c.sweep.sweepCnt } := by
  unfold advanceManualSweep; split_ifs <;> rfl

theorem lengthPart_of_pastStart {c : Channel} (h : c.state.pastStart = true) :
    lengthPart c = advanceManualSweep (countNote c) :=
  if_neg (by simp [h])

theorem lengthPart_of_not_pastStart {c : Channel} (h : c.state.pastStart = false) : lengthPart c = c :=
  if_pos h

/-- This TRACK_UPDATE counts one length unit of the note: TUF_LEN in Attack, Decay or Sustain with a finite count. -/
def countsNote (f : BitVec 5) (c : Channel) : Prop :=
  f.getLsbD 0 = true ∧ c.state.pastStart = true ∧ c.state ≠ .release ∧ 0 < c.noteLength

/-- State, priority and note length of a channel, the registers of the countdown. -/
def Channel.countdown (c : Channel) : EnvState × BitVec 8 × Int := (c.state, c.prio, c.noteLength)

section
variable (f : BitVec 5) (o : TrackOps) (t : Option ModType) (c : Channel)

/-- The countdown of TRACK_UPDATE is `countNote`'s, exactly with TUF_LEN past Start. -/
theorem trackParts_countdown :
    (trackParts f o t c).countdown =
      if f.getLsbD 0 = true ∧ c.state.pastStart = true then (countNote c).countdown else c.countdown := by
  obtain ⟨hstate, hprio, hlen, -⟩ := trackParts_length f o t c
  rw [Channel.countdown, hstate, hprio, hlen]
  by_cases hf : f.getLsbD 0 = true
  · by_cases hpast : c.state.pastStart = true
    · obtain ⟨hs, hp, hn⟩ := advanceManualSweep_keeps (countNote c)
      rw [if_pos hf, lengthPart_of_pastStart hpast, hs, hp, hn, if_pos ⟨hf, hpast⟩]
      rfl
    · rw [if_pos hf, lengthPart_of_not_pastStart (by simpa using hpast), if_neg fun h => hpast h.2]
      rfl
  · rw [if_neg hf, if_neg fun h => hf h.1]
    rfl

variable {f c}

theorem trackParts_countdown_of_not_counts (h : ¬ countsNote f c) : (trackParts f o t c).countdown = c.countdown := by
  rw [trackParts_countdown]
  split_ifs with hlen
  · rw [countNote, if_neg fun hrun => h ⟨hlen.1, hlen.2, hrun⟩]
  · rfl

theorem trackParts_countdown_of_counts (h : countsNote f c) (hne : c.noteLength ≠ 1) :
    (trackParts f o t c).countdown = (c.state, c.prio, c.noteLength - 1) := by
  obtain ⟨hf, hpast, hrun⟩ := h
  rw [trackParts_countdown, if_pos ⟨hf, hpast⟩, countNote, if_pos hrun, if_neg (by omega)]
  rfl

theorem trackParts_countdown_of_last (h : countsNote f c) (hone : c.noteLength = 1) :
    (trackParts f o t c).countdown = (.release, 1, -1) := by
  obtain ⟨hf, hpast, hrun⟩ := h
  rw [trackParts_countdown, if_pos ⟨hf, hpast⟩, countNote, if_pos hrun, if_pos (by omega)]
  rfl

variable (f c)

theorem trackParts_sweep :
    (trackParts f o t c).sweep = { c.sweep with
      sweepCnt :=
        if f.getLsbD 0 = true ∧ c.state.pastStart = true ∧ c.sweep.manualSweep = true ∧
            (c.sweep.sweepCnt : Int) < c.sweep.sweepLen then c.sweep.sweepCnt + 1 else c.sweep.sweepCnt } := by
  obtain ⟨-, -, -, hsweep⟩ := trackParts_length f o t c
  rw [hsweep]
  by_cases hf : f.getLsbD 0 = true
  · by_cases hpast : c.state.pastStart = true
    · rw [if_pos hf, lengthPart_of_pastStart hpast, advanceManualSweep_sweep, countNote_sweep]
      simp only [hf, hpast, true_and]
    · rw [if_pos hf, lengthPart_of_not_pastStart (by simpa using hpast), if_neg fun h => hpast h.2.1]
  · rw [if_neg hf, if_neg fun h => hf h.1]

end

theorem Channel.countdown_eq_iff {c : Channel} {e : EnvState} {p : BitVec 8} {n : Int} :
    c.countdown = (e, p, n) ↔ c.state = e ∧ c.prio = p ∧ c.noteLength = n := by
  simp [Channel.countdown]

/-- Settles O19: the three cases of the countdown, and the sweep. -/
theorem trackUpdateCountsTheNoteLength : Obligations.TrackUpdateCountsTheNoteLength := by
  unfold Obligations.TrackUpdateCountsTheNoteLength
  intro ch f o s hready haccept howner hf
  refine ⟨_, execTrackUpdate_of_owned hready (modType_named_of_accepted haccept) howner hf, ?_⟩
  rw [State.setRes_chan, State.chan_setChan_same]
  exact ⟨fun h => Channel.countdown_eq_iff.mp (trackParts_countdown_of_not_counts o _ h),
    fun h hne => Channel.countdown_eq_iff.mp (trackParts_countdown_of_counts o _ h hne),
    fun h hone => Channel.countdown_eq_iff.mp (trackParts_countdown_of_last o _ h hone), trackParts_sweep ..⟩

/-! ### What no part writes (R136) -/

/-- The registers TRACK_UPDATE never writes are the same in `d` as in `c`. -/
structure SameOutputs (c d : Channel) : Prop where
  reg     : d.reg = c.reg
  vol     : d.vol = c.vol
  env     : d.env = c.env
  ring    : d.ring = c.ring
  pend    : d.pend = c.pend
  trackId : d.trackId = c.trackId

theorem SameOutputs.refl (c : Channel) : SameOutputs c c := ⟨rfl, rfl, rfl, rfl, rfl, rfl⟩

theorem sameOutputs_lengthPart (c : Channel) : SameOutputs c (lengthPart c) := by
  obtain ⟨-, -, -, hreg, hvol, henv, hring, hpend, htrack⟩ := lengthPart_keeps c
  exact ⟨hreg, hvol, henv, hring, hpend, htrack⟩

section
variable {c d : Channel} (h : SameOutputs c d) (o : TrackOps)
include h

theorem SameOutputs.volumePart : SameOutputs c (volumePart o d) := ⟨h.reg, h.vol, h.env, h.ring, h.pend, h.trackId⟩

theorem SameOutputs.panPart : SameOutputs c (panPart o d) := ⟨h.reg, h.vol, h.env, h.ring, h.pend, h.trackId⟩

theorem SameOutputs.timerPart : SameOutputs c (timerPart o d) := ⟨h.reg, h.vol, h.env, h.ring, h.pend, h.trackId⟩

theorem SameOutputs.modPart (t : ModType) : SameOutputs c (modPart o t d) :=
  ⟨h.reg, h.vol, h.env, h.ring, h.pend, h.trackId⟩

end

/-- Each of the five parts, run or left out, leaves the outputs. -/
theorem sameOutputs_trackParts (f : BitVec 5) (o : TrackOps) (t : Option ModType) (c : Channel) :
    SameOutputs c (trackParts f o t c) := by
  have hlength := holds_if (f.getLsbD 0) (sameOutputs_lengthPart c) (.refl c)
  have hvolume := holds_if (f.getLsbD 1) (hlength.volumePart o) hlength
  have hpan := holds_if (f.getLsbD 2) (hvolume.panPart o) hvolume
  have htimer := holds_if (f.getLsbD 3) (hpan.timerPart o) hpan
  cases t with
  | none => exact htimer
  | some t => exact holds_if (f.getLsbD 4) (htimer.modPart o t) htimer

/-- State and priority stay, or the countdown ends in Release with priority 1. -/
theorem trackParts_state_prio (f : BitVec 5) (o : TrackOps) (t : Option ModType) (c : Channel) :
    ((trackParts f o t c).state = c.state ∧ (trackParts f o t c).prio = c.prio) ∨
      (c.state ∈ [EnvState.attack, .decay, .sustain] ∧ (trackParts f o t c).state = .release ∧
        (trackParts f o t c).prio = 1) := by
  by_cases hcounts : countsNote f c
  · by_cases hone : c.noteLength = 1
    · obtain ⟨hstate, hprio, -⟩ := Channel.countdown_eq_iff.mp (trackParts_countdown_of_last o t hcounts hone)
      obtain ⟨-, hpast, hne, -⟩ := hcounts
      exact .inr ⟨EnvState.mem_of_pastStart hpast hne, hstate, hprio⟩
    · obtain ⟨hstate, hprio, -⟩ := Channel.countdown_eq_iff.mp (trackParts_countdown_of_counts o t hcounts hone)
      exact .inl ⟨hstate, hprio⟩
  · obtain ⟨hstate, hprio, -⟩ := Channel.countdown_eq_iff.mp (trackParts_countdown_of_not_counts o t hcounts)
    exact .inl ⟨hstate, hprio⟩

/-- Settles O20: without an effect the channel is the same, and otherwise no part writes an output. -/
theorem trackUpdateNeverTouchesTheOutputs : Obligations.TrackUpdateNeverTouchesTheOutputs := by
  unfold Obligations.TrackUpdateNeverTouchesTheOutputs
  intro ch f o s t hexec
  obtain ⟨-, -, ⟨-, rfl⟩ | ⟨-, -, rfl⟩⟩ := execTrackUpdate_next hexec
  · exact ⟨rfl, rfl, rfl, rfl, rfl, rfl, .inl ⟨rfl, rfl⟩⟩
  · rw [State.setRes_chan, State.chan_setChan_same]
    obtain ⟨hreg, hvol, henv, hring, hpend, htrack⟩ := sameOutputs_trackParts f o (modTypeOf o.modType) (s.chan ch)
    exact ⟨hreg, hvol, henv, hring, hpend, htrack, trackParts_state_prio ..⟩

/-! ### The track values (R132 to R135) -/

/-- The recompute flag of a modulation target, which `setTarget` sets (R135). -/
def RecomputeFlags.ofTarget (f : RecomputeFlags) : ModType → Bool
  | .pitch => f.updTmr
  | .volume => f.updVol
  | .pan => f.updPan

/-- The track flag whose part raises the recompute flag of a target: TUF_TIMER, TUF_VOL and TUF_PAN (R132 to R134). -/
def partFlag (f : BitVec 5) : ModType → Bool
  | .pitch => f.getLsbD 3
  | .volume => f.getLsbD 1
  | .pan => f.getLsbD 2

theorem RecomputeFlags.ofTarget_setTarget (f : RecomputeFlags) (t u : ModType) :
    (f.setTarget t).ofTarget u = (f.ofTarget u || t == u) := by
  cases t <;> cases u <;> simp [setTarget, setVol, setPan, setTmr, ofTarget]

theorem asr_one (a : Int) : asr a 1 = a / 2 := by
  rw [asr, pow_one]

/-- The first four parts are TRACK_UPDATE without a modulation type; the fifth runs exactly with TUF_MOD. -/
theorem trackParts_of_mod {f : BitVec 5} (hf : f.getLsbD 4 = true) (o : TrackOps) (t : ModType) (c : Channel) :
    trackParts f o (some t) c = modPart o t (trackParts f o none c) :=
  if_pos hf

theorem trackParts_of_no_mod {f : BitVec 5} (hf : f.getLsbD 4 = false) (o : TrackOps) (t : Option ModType)
    (c : Channel) : trackParts f o t c = trackParts f o none c := by
  cases t with
  | none => rfl
  | some t => exact if_neg (ne_true_of_eq_false hf)

section
variable (b : Bool) (o : TrackOps) (c : Channel)

theorem volumePart_note_if :
    (if b then volumePart o c else c).note = { c.note with
      extAmpl := if b then o.volMaster.toInt + o.volSeq.toInt + o.volTrack.toInt + o.volExpr.toInt
        else c.note.extAmpl } := by
  cases b <;> rfl

theorem panPart_note_if :
    (if b then panPart o c else c).note =
      { c.note with extPan := if b then o.pan.toInt else c.note.extPan } := by
  cases b <;> rfl

theorem timerPart_note_if :
    (if b then timerPart o c else c).note = { c.note with
      extTune := if b then
          ((c.note.key.toNat : Int) - (c.note.orgKey.toNat : Int)) * 64
            + o.pitchBend.toInt * (o.pitchBendRange.toNat : Int) / 2
        else c.note.extTune } := by
  cases b
  · rfl
  · simp only [timerPart, asr_one, if_true]
    rfl

variable (u : ModType)

theorem volumePart_flag_if :
    (if b then volumePart o c else c).flags.ofTarget u = (c.flags.ofTarget u || b && .volume == u) := by
  cases b
  · simp
  · exact RecomputeFlags.ofTarget_setTarget c.flags .volume u

theorem panPart_flag_if :
    (if b then panPart o c else c).flags.ofTarget u = (c.flags.ofTarget u || b && .pan == u) := by
  cases b
  · simp
  · exact RecomputeFlags.ofTarget_setTarget c.flags .pan u

theorem timerPart_flag_if :
    (if b then timerPart o c else c).flags.ofTarget u = (c.flags.ofTarget u || b && .pitch == u) := by
  cases b
  · simp
  · exact RecomputeFlags.ofTarget_setTarget c.flags .pitch u

end

/-- The modulation part raises the flags of the old and the new target when the type changes. -/
theorem modPart_flag (o : TrackOps) (t u : ModType) (c : Channel) :
    (modPart o t c).flags.ofTarget u =
      (c.flags.ofTarget u || (t != c.mod.modType && (c.mod.modType == u || t == u))) := by
  by_cases hsame : c.mod.modType = t
  · simp [modPart, hsame]
  · have hchanged : (t != c.mod.modType) = true := bne_iff_ne.mpr (Ne.symm hsame)
    rw [modPart, if_neg hsame, RecomputeFlags.ofTarget_setTarget, RecomputeFlags.ofTarget_setTarget, hchanged,
      Bool.true_and, Bool.or_assoc]

section
variable (f : BitVec 5) (o : TrackOps) (t : Option ModType) (c : Channel)

/-- Before the modulation part every modulation register is as it was (R131 to R134). -/
theorem trackParts_none_mod : (trackParts f o none c).mod = c.mod := by
  obtain ⟨-, hmod, -⟩ := lengthPart_keeps c
  have hlength := holds_if (P := fun d => d.mod = c.mod) (f.getLsbD 0) hmod rfl
  have hvolume := holds_if (P := fun d => d.mod = c.mod) (f.getLsbD 1)
    ((volumePart_mod o _).trans hlength) hlength
  have hpan := holds_if (P := fun d => d.mod = c.mod) (f.getLsbD 2) ((panPart_mod o _).trans hvolume) hvolume
  exact holds_if (P := fun d => d.mod = c.mod) (f.getLsbD 3) ((timerPart_mod o _).trans hpan) hpan

/-- The note registers after all parts: each bias is the operands' exactly with its flag (R132 to R134). -/
theorem trackParts_note :
    (trackParts f o t c).note = { c.note with
      extAmpl := if f.getLsbD 1 then o.volMaster.toInt + o.volSeq.toInt + o.volTrack.toInt + o.volExpr.toInt
        else c.note.extAmpl,
      extPan := if f.getLsbD 2 then o.pan.toInt else c.note.extPan,
      extTune := if f.getLsbD 3 then
          ((c.note.key.toNat : Int) - (c.note.orgKey.toNat : Int)) * 64
            + o.pitchBend.toInt * (o.pitchBendRange.toNat : Int) / 2
        else c.note.extTune } := by
  have hfifth : (trackParts f o t c).note = (trackParts f o none c).note := by
    cases t with
    | none => rfl
    | some t => exact holds_if (P := fun d => d.note = (trackParts f o none c).note) (f.getLsbD 4) rfl rfl
  obtain ⟨hnote, -⟩ := lengthPart_keeps c
  have hlength := holds_if (P := fun d => d.note = c.note) (f.getLsbD 0) hnote rfl
  rw [hfifth, trackParts, timerPart_note_if, panPart_note_if, volumePart_note_if, hlength]

/-- The recompute flags after the first four parts: each is raised exactly by its own part (R132 to R134). -/
theorem trackParts_none_flag (u : ModType) :
    (trackParts f o none c).flags.ofTarget u = (c.flags.ofTarget u || partFlag f u) := by
  obtain ⟨-, -, hflags, -⟩ := lengthPart_keeps c
  have hlength := holds_if (P := fun d => d.flags = c.flags) (f.getLsbD 0) hflags rfl
  rw [trackParts, timerPart_flag_if, panPart_flag_if, volumePart_flag_if, hlength]
  cases u <;> simp [partFlag, beq_eq_decide]

/-- The recompute flags after all parts: besides its own part, a change of the modulation type from or to its target
raises a flag (R135). -/
theorem trackParts_flag (u : ModType) :
    (trackParts f o t c).flags.ofTarget u = (c.flags.ofTarget u || partFlag f u ||
      (f.getLsbD 4 && (trackParts f o t c).mod.modType != c.mod.modType &&
        (c.mod.modType == u || (trackParts f o t c).mod.modType == u))) := by
  rw [← trackParts_none_flag f o c u]
  cases hf : f.getLsbD 4 with
  | false => rw [trackParts_of_no_mod hf, Bool.false_and, Bool.false_and, Bool.or_false]
  | true =>
    cases t with
    | none => simp [trackParts_none_mod]
    | some t =>
      rw [trackParts_of_mod hf, modPart_flag, trackParts_none_mod, Bool.true_and]
      rfl

end

/-- Settles O18: the note registers, the modulation registers, and each recompute flag. -/
theorem trackUpdatePropagatesTheTrackValues : Obligations.TrackUpdatePropagatesTheTrackValues := by
  unfold Obligations.TrackUpdatePropagatesTheTrackValues
  intro ch f o s hready haccept howner hf
  refine ⟨_, execTrackUpdate_of_owned hready (modType_named_of_accepted haccept) howner hf, rfl,
    s.sameExcept_complete .., ?_⟩
  rw [State.setRes_chan, State.chan_setChan_same]
  have hflag := trackParts_flag f o (modTypeOf o.modType) (s.chan ch)
  refine ⟨trackParts_note .., fun hclear => ?_, fun hset => ?_, hflag .volume, hflag .pan, hflag .pitch⟩
  · rw [trackParts_of_no_mod hclear, trackParts_none_mod]
  · rw [modTypeOf_of_ne_reserved fun hres => haccept ⟨hset, hres⟩, trackParts_of_mod hset, modPart,
      trackParts_none_mod]

end Sys2Proof.Machine

/-! PROOFS. The statements of spec/42_update_envelope.md: what UPDATE answers (R140, R141), the Start action and one
step of the envelope (R142 to R147), the ticks an attack and a release take (R148), and the frame of a tick. -/

namespace Sys2Proof.Machine

/-! ### What UPDATE answers (R140, R141) -/

theorem execUpdate_of_idle {ch : ChanId} {s : State} (hready : s.cfg.tablesReady = true)
    (hst : (s.chan ch).state = .none) : execUpdate ch s = .next (s.setRes 0) := by
  rw [execUpdate, if_neg (by simp [hready]), if_pos hst]

theorem execUpdate_of_unset_rate {ch : ChanId} {s : State} (hready : s.cfg.tablesReady = true)
    (hst : (s.chan ch).state ≠ .none) (hrate : s.cfg.sampleRate = 0) :
    execUpdate ch s = .refused .sampleRateNotSet := by
  rw [execUpdate, if_neg (by simp [hready]), if_neg hst]
  exact if_pos hrate

/-- Settles O21: the checks of UPDATE in their order. -/
theorem updateIdleOrUnsetRate : Obligations.UpdateIdleOrUnsetRate := by
  unfold Obligations.UpdateIdleOrUnsetRate
  exact fun ch s hready => ⟨execUpdate_of_idle hready, execUpdate_of_unset_rate hready⟩

theorem tickChannel_of_disabled (p : Params) (rate : BitVec 32) {c : Channel} (hpast : c.state.pastStart = true)
    (hoff : c.reg.enable = false) : tickChannel p rate c = some (killAction p c) :=
  if_pos ⟨hpast, hoff⟩

/-- A tick that is not a forced kill is the envelope step, and the cascade unless that step killed the channel. -/
theorem tickChannel_of_enabled {p : Params} (rate : BitVec 32) {c d : Channel} (hon : c.reg.enable = true)
    (hstep : envelopeStep p c = some d) :
    tickChannel p rate c = some (if d.state = .none then d
      else recomputeCascade p rate c.state (sweepActive c.sweep) d) := by
  rw [tickChannel, if_neg (by simp [hon]), hstep]
  exact (apply_ite some ..).symm

/-- Settles O22: the tick of a disabled channel past Start is KillAction. -/
theorem updateKillsADisabledChannel : Obligations.UpdateKillsADisabledChannel := by
  unfold Obligations.UpdateKillsADisabledChannel
  intro ch s hready hrate hpast hoff
  refine ⟨_, execUpdate_of_tick hready (EnvState.ne_none_of_pastStart hpast) hrate
    (tickChannel_of_disabled _ _ hpast hoff), rfl, s.sameExcept_complete .., ?_⟩
  rw [State.setRes_chan, State.chan_setChan_same]
  exact ⟨killAction_killedFrom .., congrArg Envelope.ampl (killAction_env ..)⟩

/-! ### What the cascade writes (R165 to R172) -/

/-- The registers the cascade writes. -/
structure CascadeOutputs where
  volumeMul      : VolMul
  volumeDiv      : VolDiv
  panning        : Pan
  timer          : BitVec 16
  sampleIncrease : Rat
  sweepCnt       : Nat
  mod            : Modulation
  flags          : RecomputeFlags
  vol            : Nat

/-- The channel with the registers of the cascade written. -/
def Channel.withOutputs (c : Channel) (o : CascadeOutputs) : Channel :=
  { c with
    reg := { c.reg with
      volumeMul := o.volumeMul, volumeDiv := o.volumeDiv, panning := o.panning, timer := o.timer,
      sampleIncrease := o.sampleIncrease }
    sweep := { c.sweep with sweepCnt := o.sweepCnt }
    mod := o.mod
    flags := o.flags
    vol := o.vol }

/-- What those registers hold in `c`. -/
def Channel.outputs (c : Channel) : CascadeOutputs where
  volumeMul      := c.reg.volumeMul
  volumeDiv      := c.reg.volumeDiv
  panning        := c.reg.panning
  timer          := c.reg.timer
  sampleIncrease := c.reg.sampleIncrease
  sweepCnt       := c.sweep.sweepCnt
  mod            := c.mod
  flags          := c.flags
  vol            := c.vol

/-- Only registers of the cascade differ in `d` from `c`. -/
def Channel.SameButOutputs (c d : Channel) : Prop := d = c.withOutputs d.outputs

theorem Channel.SameButOutputs.trans {b c d : Channel} (h : b.SameButOutputs c) (h' : c.SameButOutputs d) :
    b.SameButOutputs d := by
  rw [SameButOutputs, h] at h'
  exact h'

/-- The sweep step of a timer recompute moves the counter alone (R167). -/
theorem timerRecompute_sameButOutputs (p : Params) (rate : BitVec 32) (sweepOn modOn : Bool) (x : Int) (c : Channel) :
    c.SameButOutputs (timerRecompute p rate sweepOn modOn x c) := by
  cases h : sweepOn && !c.sweep.manualSweep <;>
    simp [Channel.SameButOutputs, Channel.withOutputs, Channel.outputs, timerRecompute, h]

theorem recomputeCascade_sameButOutputs (p : Params) (rate : BitVec 32) (e : EnvState) (w : Bool) (c : Channel) :
    c.SameButOutputs (recomputeCascade p rate e w c) := by
  let m := modulationStep p c.mod
  have hmod : c.SameButOutputs { c with mod := m.regs } := rfl
  have htimer := holds_if (P := c.SameButOutputs) (timerNeeded c.flags w m.active m.regs.modType)
    (hmod.trans (timerRecompute_sameButOutputs p rate w m.active m.param _)) hmod
  have hvolume := holds_if (P := c.SameButOutputs) (volumeNeeded c.flags e m.active m.regs.modType)
    (htimer.trans (d := volumeRecompute p m.active m.param _) rfl) htimer
  exact holds_if (P := c.SameButOutputs) (panNeeded c.flags m.active m.regs.modType)
    (hvolume.trans (d := panRecompute m.active m.param _) rfl) hvolume

/-- Settles O37: the envelope step of a sounding channel keeps the register, and the cascade writes its outputs. -/
theorem updateFrameOfALivingChannel : Obligations.UpdateFrameOfALivingChannel := by
  unfold Obligations.UpdateFrameOfALivingChannel
  intro ch s t hexec hpast halive
  obtain ⟨c, hstep, hne, -, -, rfl⟩ := execUpdate_alive hexec halive
  obtain ⟨htrack, hprio, hpend, hlen, hsweep, -, -, -, henv, hnote, hlive⟩ := envelopeStep_keeps hstep hne
  have hstart := EnvState.ne_start_of_pastStart hpast
  obtain ⟨hreg, hring⟩ := hlive hstart
  rw [if_neg hstart] at hnote
  refine ⟨rfl, s.sameExcept_complete .., ?_⟩
  rw [State.setRes_chan, State.chan_setChan_same, recomputeCascade_sameButOutputs]
  refine ⟨htrack, hprio, hpend, hlen, hnote, hring, henv, ?_, ?_⟩
  · rw [← hsweep]; rfl
  · rw [← hreg]; rfl

/-! ### The attack step, pass by pass (R143) -/

theorem highBits_eq_ediv (a : Int) : highBits a = a / 128 := rfl

/-- `b` is pass `k` of the attack multiplication from `a`, and the first whose high bits are not `old`. -/
structure FirstPassOff (lvl : AttackCoef) (old a : Int) (k : Nat) (b : Int) : Prop where
  pos    : 1 ≤ k
  pass   : b = (attackPass lvl)^[k] a
  off    : highBits b ≠ old
  before : ∀ j, 1 ≤ j → j < k → highBits ((attackPass lvl)^[j] a) = old

theorem FirstPassOff.succ {lvl : AttackCoef} {old a b : Int} {k : Nat}
    (h : FirstPassOff lvl old (attackPass lvl a) k b) (hold : highBits (attackPass lvl a) = old) :
    FirstPassOff lvl old a (k + 1) b where
  pos := Nat.le_add_left 1 k
  pass := h.pass
  off := h.off
  before j hj hjk := by
    obtain ⟨i, rfl⟩ := Nat.exists_eq_add_of_le' hj
    rcases Nat.eq_zero_or_pos i with rfl | hi
    · exact hold
    · exact h.before i hi (Nat.lt_of_add_lt_add_right hjk)

/-- The attack loop yields the first pass off the old high bits, within its fuel. -/
theorem attackLoop_eq_some {lvl : AttackCoef} {old a b : Int} {fuel : Nat} (h : attackLoop lvl old fuel a = some b) :
    ∃ k ≤ fuel, FirstPassOff lvl old a k b := by
  induction fuel generalizing a with
  | zero => cases h
  | succ n ih =>
    simp only [attackLoop] at h
    split_ifs at h with hoff
    · cases h
      exact ⟨1, Nat.le_add_left 1 n, le_refl 1, rfl, hoff, fun j hj hj' => absurd hj (not_le.mpr hj')⟩
    · obtain ⟨k, hk, hfirst⟩ := ih h
      exact ⟨k + 1, Nat.succ_le_succ hk, hfirst.succ (not_not.mp hoff)⟩

theorem attackStep_firstPass {c d : Channel} (h : attackStep c = some d) :
    ∃ k ≤ 128, FirstPassOff c.env.attackLvl (highBits c.env.ampl) c.env.ampl k d.env.ampl := by
  unfold attackStep at h
  split at h
  · cases h
  · rename_i a hloop
    cases h
    refine attackLoop_eq_some (hloop.trans (congrArg some ?_))
    split_ifs <;> rfl

/-- One attack step below 0: where it goes, and that it is the first pass off the old high bits. -/
theorem attackStep_below_zero {c : Channel} (hneg : c.env.ampl < 0) :
    ∃ a, attackStep c = some (c.atLevel (if a = 0 then .decay else c.state) a) ∧ c.env.ampl < a ∧ a ≤ 0 ∧
      highBits c.env.ampl < highBits a ∧
      ∃ k ≤ 128, FirstPassOff c.env.attackLvl (highBits c.env.ampl) c.env.ampl k a := by
  obtain ⟨a, hlt, hle, hhigh, heq⟩ := attackStep_completes c hneg
  have hd : attackStep c = some (c.atLevel (if a = 0 then .decay else c.state) a) := by
    rw [heq]; split_ifs <;> rfl
  exact ⟨a, hd, hlt, hle, hhigh, attackStep_firstPass hd⟩

/-! ### The envelope step of each state past Start (R142 to R146) -/

theorem Channel.atLevel_of_state {c : Channel} {e : EnvState} (h : c.state = e) (a : Int) :
    c.atLevel e a = { c with env := { c.env with ampl := a } } := by
  rw [← h]; rfl

section
variable (p : Params) {c : Channel}

theorem envelopeStep_of_attack (h : c.state = .attack) : envelopeStep p c = attackStep c := by
  rw [envelopeStep, h]

theorem envelopeStep_of_decay (h : c.state = .decay) : envelopeStep p c = some (decayStep p c) := by
  rw [envelopeStep, h]

theorem envelopeStep_of_sustain (h : c.state = .sustain) : envelopeStep p c = some c := by
  rw [envelopeStep, h]

theorem envelopeStep_of_release (h : c.state = .release) : envelopeStep p c = some (releaseStep p c) := by
  rw [envelopeStep, h]

end

/-! ### One UPDATE of an enabled channel past Start (R143 to R147) -/

/-- UPDATE of channel `ch` is neither refused nor a forced kill: tables and rate are set and the channel is enabled. -/
structure State.Runs (s : State) (ch : ChanId) : Prop where
  ready  : s.cfg.tablesReady = true
  rate   : s.cfg.sampleRate ≠ 0
  enable : (s.chan ch).reg.enable = true

/-- UPDATE of channel `ch` from `s` to `t` leaves it in state `e` with amplitude `a`, ready to run on. -/
structure StepsTo (ch : ChanId) (s t : State) (e : EnvState) (a : Int) : Prop where
  exec  : exec (.update ch) s = .next t
  same  : s.sameExcept t ch
  runs  : t.Runs ch
  state : (t.chan ch).state = e
  env   : (t.chan ch).env = { (s.chan ch).env with ampl := a }

theorem StepsTo.ampl {ch : ChanId} {s t : State} {e : EnvState} {a : Int} (h : StepsTo ch s t e a) :
    (t.chan ch).env.ampl = a :=
  congrArg Envelope.ampl h.env

section
variable {ch : ChanId} {s : State} (h : s.Runs ch)
include h

/-- An envelope step that writes the state and the amplitude and does not kill, carried through UPDATE. -/
theorem State.Runs.stepsTo {e : EnvState} {a : Int} (hst : (s.chan ch).state ≠ .none) (he : e ≠ .none)
    (hstep : envelopeStep s.params (s.chan ch) = some ((s.chan ch).atLevel e a)) : ∃ t, StepsTo ch s t e a := by
  have hlive : ((s.chan ch).atLevel e a).state ≠ .none := he
  have htick := tickChannel_of_enabled s.cfg.sampleRate h.enable hstep
  rw [if_neg hlive] at htick
  refine ⟨_, execUpdate_of_tick h.ready hst h.rate htick, s.sameExcept_complete .., ⟨h.ready, h.rate, ?_⟩, ?_, ?_⟩ <;>
    rw [State.setRes_chan, State.chan_setChan_same]
  · rw [recomputeCascade_sameButOutputs]
    exact h.enable
  · exact recomputeCascade_state ..
  · exact recomputeCascade_env ..

/-- Attack rises to the first pass off the old high bits, and enters Decay at 0 (R143). -/
theorem State.Runs.update_attack (hst : (s.chan ch).state = .attack) (hneg : (s.chan ch).env.ampl < 0) :
    ∃ t a, StepsTo ch s t (if a = 0 then .decay else .attack) a ∧ a ≤ 0 ∧
      highBits (s.chan ch).env.ampl < highBits a ∧
      ∃ k ≤ 128, FirstPassOff (s.chan ch).env.attackLvl (highBits (s.chan ch).env.ampl) (s.chan ch).env.ampl k a := by
  obtain ⟨a, hattack, -, hle, hhigh, hfirst⟩ := attackStep_below_zero hneg
  rw [hst] at hattack
  have hlive : (if a = 0 then EnvState.decay else .attack) ≠ .none := by split_ifs <;> decide
  obtain ⟨t, ht⟩ := h.stepsTo (by simp [hst]) hlive ((envelopeStep_of_attack _ hst).trans hattack)
  exact ⟨t, a, ht, hle, hhigh, hfirst⟩

/-- Decay falls by its rate, and enters Sustain at the level (R144). -/
theorem State.Runs.update_decay (hst : (s.chan ch).state = .decay) :
    let level := sustainEntry s.params (s.chan ch).env.sustainLvl.toNat
    let down := (s.chan ch).env.ampl - unsignedOp (s.chan ch).env.decayRate
    ∃ t, (down ≤ level ∧ StepsTo ch s t .sustain level) ∨ (level < down ∧ StepsTo ch s t .decay down) := by
  have hstep := envelopeStep_of_decay s.params hst
  rcases decayStep_cases s.params (s.chan ch) with ⟨hle, heq⟩ | ⟨hlt, heq⟩
  · rw [heq] at hstep
    obtain ⟨t, ht⟩ := h.stepsTo (e := .sustain) (by simp [hst]) (by decide) hstep
    exact ⟨t, .inl ⟨hle, ht⟩⟩
  · rw [heq, ← Channel.atLevel_of_state hst] at hstep
    obtain ⟨t, ht⟩ := h.stepsTo (by simp [hst]) (by decide) hstep
    exact ⟨t, .inr ⟨hlt, ht⟩⟩

/-- Sustain holds the amplitude (R145). -/
theorem State.Runs.update_sustain (hst : (s.chan ch).state = .sustain) :
    ∃ t, StepsTo ch s t .sustain (s.chan ch).env.ampl :=
  h.stepsTo (by simp [hst]) (by decide)
    ((envelopeStep_of_sustain _ hst).trans (congrArg some (Channel.atLevel_of_state hst _).symm))

/-- Release falls by its rate while that leaves it above AMPL_MIN (R146). -/
theorem State.Runs.update_release_above (hst : (s.chan ch).state = .release)
    (habove : s.params.amplMin < (s.chan ch).env.ampl - unsignedOp (s.chan ch).env.releaseRate) :
    ∃ t, StepsTo ch s t .release ((s.chan ch).env.ampl - unsignedOp (s.chan ch).env.releaseRate) := by
  have hstep := envelopeStep_of_release s.params hst
  rcases releaseStep_cases s.params (s.chan ch) with ⟨hmin, -⟩ | ⟨-, heq⟩
  · exact absurd habove (not_lt.mpr hmin)
  · rw [heq, ← Channel.atLevel_of_state hst] at hstep
    exact h.stepsTo (by simp [hst]) (by decide) hstep

/-- Release kills the channel at or below AMPL_MIN, and the amplitude keeps the decremented value (R146, D17). -/
theorem State.Runs.update_release_kills (hst : (s.chan ch).state = .release)
    (hmin : (s.chan ch).env.ampl - unsignedOp (s.chan ch).env.releaseRate ≤ s.params.amplMin) :
    exec (.update ch) s = s.complete ch (killAction s.params ((s.chan ch).atLevel .release
      ((s.chan ch).env.ampl - unsignedOp (s.chan ch).env.releaseRate))) 0 := by
  have hstep := envelopeStep_of_release s.params hst
  rcases releaseStep_cases s.params (s.chan ch) with ⟨-, heq⟩ | ⟨habove, -⟩
  · rw [heq] at hstep
    exact execUpdate_of_tick h.ready (by simp [hst]) h.rate (tickChannel_of_enabled _ h.enable hstep)
  · exact absurd habove (not_lt.mpr hmin)

end

/-- Settles O24: the attack loop stops at the first pass off the old high bits. -/
theorem updateStepsTheAttack : Obligations.UpdateStepsTheAttack := by
  unfold Obligations.UpdateStepsTheAttack
  intro ch s hready hrate hst hon hneg
  obtain ⟨t, a, ht, -, -, k, hk, hfirst⟩ := State.Runs.update_attack ⟨hready, hrate, hon⟩ hst hneg
  refine ⟨t, k, ht.exec, hfirst.pos, hk, ht.ampl.trans hfirst.pass, hfirst.pass ▸ hfirst.off, hfirst.before, ?_⟩
  rw [ht.ampl]
  exact ht.state

/-- Settles O25: a step of Decay and of Sustain, and of Release above and at AMPL_MIN. -/
theorem updateStepsDecaySustainRelease : Obligations.UpdateStepsDecaySustainRelease := by
  unfold Obligations.UpdateStepsDecaySustainRelease
  intro ch s hready hrate hon hmem
  have hruns : s.Runs ch := ⟨hready, hrate, hon⟩
  simp only [List.mem_cons, List.not_mem_nil, or_false] at hmem
  rcases hmem with hst | hst | hst
  · obtain ⟨t, ⟨hle, ht⟩ | ⟨hlt, ht⟩⟩ := hruns.update_decay hst
    · exact ⟨t, ht.exec, ht.same, fun _ => ⟨fun _ => ⟨ht.state, ht.ampl⟩,
        fun hlt => absurd hlt (not_lt.mpr hle)⟩, by simp [hst], by simp [hst]⟩
    · exact ⟨t, ht.exec, ht.same, fun _ => ⟨fun hle => absurd hlt (not_lt.mpr hle),
        fun _ => ⟨ht.state, ht.ampl⟩⟩, by simp [hst], by simp [hst]⟩
  · obtain ⟨t, ht⟩ := hruns.update_sustain hst
    exact ⟨t, ht.exec, ht.same, by simp [hst], fun _ => ⟨ht.state, ht.ampl⟩, by simp [hst]⟩
  · by_cases habove : s.params.amplMin < (s.chan ch).env.ampl - unsignedOp (s.chan ch).env.releaseRate
    · obtain ⟨t, ht⟩ := hruns.update_release_above hst habove
      exact ⟨t, ht.exec, ht.same, by simp [hst], by simp [hst], fun _ => ⟨fun hle => absurd habove (not_lt.mpr hle),
        fun _ => ⟨ht.state, ht.ampl⟩⟩⟩
    · refine ⟨_, hruns.update_release_kills hst (not_lt.mp habove), s.sameExcept_complete .., by simp [hst],
        by simp [hst], fun _ => ⟨fun _ => ?_, fun hlt => absurd hlt habove⟩⟩
      rw [State.setRes_chan, State.chan_setChan_same]
      exact ⟨killAction_killedFrom .., rfl⟩

/-! ### UPDATE after UPDATE (R148) -/

theorem runUpdates_one (ch : ChanId) (s : State) : runUpdates ch 1 s = exec (.update ch) s := by
  rw [runUpdates]
  cases exec (.update ch) s <;> rfl

theorem runUpdates_succ_of_next {ch : ChanId} {s t : State} (h : exec (.update ch) s = .next t) (n : Nat) :
    runUpdates ch (n + 1) s = runUpdates ch n t := by
  rw [runUpdates, h]

/-- After `n` UPDATEs that complete, one more is the last. -/
theorem runUpdates_succ_of_run {ch : ChanId} {n : Nat} {s t : State} (h : runUpdates ch n s = .next t) :
    runUpdates ch (n + 1) s = exec (.update ch) t := by
  induction n generalizing s with
  | zero =>
    cases h
    exact runUpdates_one ..
  | succ n ih =>
    rw [runUpdates] at h
    cases hexec : exec (.update ch) s with
    | next u =>
      rw [hexec] at h
      rw [runUpdates_succ_of_next hexec, ih h]
    | fault r => rw [hexec] at h; cases h
    | refused r => rw [hexec] at h; cases h

/-- Below 0 the high bits are below 0, so an attack has somewhere to rise (R143). -/
theorem highBits_neg {a : Int} (h : a < 0) : highBits a < 0 := by
  rw [highBits_eq_ediv]; omega

/-- An attack ends in Decay at 0: each UPDATE raises the high bits (R148 (a)). -/
theorem State.Runs.attack_ends {ch : ChanId} (n : Nat) {s : State} (h : s.Runs ch)
    (hst : (s.chan ch).state = .attack) (hneg : (s.chan ch).env.ampl < 0)
    (hn : -highBits (s.chan ch).env.ampl ≤ n) :
    ∃ m ≤ n, ∃ t, runUpdates ch m s = .next t ∧ (t.chan ch).state = .decay ∧ (t.chan ch).env.ampl = 0 := by
  induction n generalizing s with
  | zero =>
    have := highBits_neg hneg
    omega
  | succ n ih =>
    obtain ⟨t, a, ht, hle, hrise, -⟩ := h.update_attack hst hneg
    have hstate := ht.state
    split_ifs at hstate with hzero
    · exact ⟨1, Nat.le_add_left 1 n, t, (runUpdates_one ..).trans ht.exec, hstate, ht.ampl.trans hzero⟩
    · obtain ⟨m, hm, u, hrun, hend⟩ := ih ht.runs hstate (ht.ampl.trans_lt (by omega)) (by rw [ht.ampl]; omega)
      exact ⟨m + 1, Nat.succ_le_succ hm, u, (runUpdates_succ_of_next ht.exec m).trans hrun, hend⟩

/-- Settles O26: the high bits of the amplitude, below 0, count the UPDATEs left. -/
theorem attackReachesDecayInBoundedTicks : Obligations.AttackReachesDecayInBoundedTicks := by
  unfold Obligations.AttackReachesDecayInBoundedTicks
  intro ch s hready hrate hst hon hneg
  have hhigh := highBits_neg hneg
  obtain ⟨n, hn, t, hrun, hend⟩ := State.Runs.attack_ends (-highBits (s.chan ch).env.ampl).toNat
    ⟨hready, hrate, hon⟩ hst hneg (Int.self_le_toNat _)
  refine ⟨n, t, ?_, hrun, hend⟩
  rw [← highBits_eq_ediv]
  omega

/-- Release after `n` UPDATEs above AMPL_MIN: the rate has been subtracted `n` times (R146). -/
theorem State.Runs.release_run {ch : ChanId} {s : State} (h : s.Runs ch) (hst : (s.chan ch).state = .release) (n : Nat)
    (habove : s.params.amplMin < (s.chan ch).env.ampl - n * unsignedOp (s.chan ch).env.releaseRate) :
    ∃ t, runUpdates ch n s = .next t ∧ t.Runs ch ∧ t.params = s.params ∧ (t.chan ch).state = .release ∧
      (t.chan ch).env = { (s.chan ch).env with
        ampl := (s.chan ch).env.ampl - n * unsignedOp (s.chan ch).env.releaseRate } := by
  induction n with
  | zero => exact ⟨s, rfl, h, rfl, hst, by simp⟩
  | succ n ih =>
    have hrate := (unsignedOp_bounds (s.chan ch).env.releaseRate).1
    push_cast [add_mul, one_mul, ← sub_sub] at habove ⊢
    obtain ⟨t, hrun, hruns, hparams, hstate, henv⟩ := ih (by omega)
    obtain ⟨u, hu⟩ := hruns.update_release_above hstate (by rw [hparams, henv]; exact habove)
    obtain ⟨hkept, -⟩ := hu.same
    refine ⟨u, (runUpdates_succ_of_run hrun).trans hu.exec, hu.runs, hkept.trans hparams, hu.state, ?_⟩
    rw [hu.env, henv]

/-- The count of R146 is the first number of ticks that covers the distance. -/
theorem lt_ceil_div_iff {x r : Int} (hr : 0 < r) (n : Nat) : n < ⌈(x : ℚ) / (r : ℚ)⌉.toNat ↔ n * r < x := by
  have hr' : (0 : ℚ) < r := by exact_mod_cast hr
  rw [Int.ceil_toNat, Nat.lt_ceil, lt_div_iff₀ hr']
  exact_mod_cast Iff.rfl

/-- Settles O27: the amplitude stays above AMPL_MIN for exactly the UPDATEs that do not cover the distance to it. -/
theorem releaseEndsAfterExactlyTheCeiling : Obligations.ReleaseEndsAfterExactlyTheCeiling := by
  unfold Obligations.ReleaseEndsAfterExactlyTheCeiling
  intro ch s hready hset hst hon hne habove rate ticks
  have hruns : s.Runs ch := ⟨hready, hset, hon⟩
  have hrate : 0 < rate := by
    have hpos : (s.chan ch).env.releaseRate.toNat ≠ 0 := fun hzero => hne (BitVec.eq_of_toNat_eq hzero)
    omega
  have hcount (n : Nat) : n < ticks ↔ n * rate < (s.chan ch).env.ampl - s.params.amplMin := lt_ceil_div_iff hrate n
  have hrun (n : Nat) (hn : n < ticks) := hruns.release_run hst n (lt_sub_comm.mp ((hcount n).mp hn))
  constructor
  · intro n hn
    obtain ⟨t, ht, -, -, hstate, henv⟩ := hrun n hn
    exact ⟨t, ht, hstate, congrArg Envelope.ampl henv⟩
  · obtain ⟨m, hm⟩ : ∃ m, ticks = m + 1 := Nat.exists_eq_add_one.mpr ((hcount 0).mpr (by simpa using habove))
    obtain ⟨t, ht, htruns, hparams, hstate, henv⟩ := hrun m (by omega)
    have hcovered := (hcount (m + 1)).not.mp (by omega)
    have hlast : (s.chan ch).env.ampl - m * rate - rate ≤ s.params.amplMin := by
      push_cast [add_mul, one_mul] at hcovered
      omega
    have hkill := htruns.update_release_kills hstate (by rw [hparams, henv]; exact hlast)
    refine ⟨_, hm ▸ (runUpdates_succ_of_run ht).trans hkill, ?_⟩
    rw [State.setRes_chan, State.chan_setChan_same, killAction_state]

/-! ### The first UPDATE of a note (R142, R143) -/

/-- Settles O23: the Start action writes the snapshot's fields, the attack step the amplitude and the state, and the
cascade only its outputs, none of which is named. -/
theorem updateStartsTheNote : Obligations.UpdateStartsTheNote := by
  unfold Obligations.UpdateStartsTheNote
  intro ch s hready hrate hst hmin
  obtain ⟨a, hstep, hlt, hle, -, k, hk, hfirst⟩ :=
    attackStep_below_zero (c := startAction s.params (s.chan ch)) hmin
  have htick := tickChannel_of_start s.params s.cfg.sampleRate hst
  rw [hstep, Option.map_some, recomputeCascade_sameButOutputs] at htick
  refine ⟨_, execUpdate_of_tick hready (by simp [hst]) hrate htick, rfl, s.sameExcept_complete .., ?_⟩
  rw [State.setRes_chan, State.chan_setChan_same]
  refine ⟨rfl, rfl, rfl, rfl, rfl, rfl, rfl, rfl, ?_, rfl, rfl, rfl, rfl, rfl, rfl, rfl, rfl, rfl, rfl, hlt, hle, rfl,
    k, hfirst.pos, hk, hfirst.pass, ?_, hfirst.before⟩
  · exact if_congr (formatOf_eq_psg_iff _) rfl rfl
  · exact hfirst.pass ▸ hfirst.off

end Sys2Proof.Machine

/-! PROOFS. The statements of spec/43_modulation_pitch_volume.md: the modulation contribution (R162, R163), its phase
(R164) and its registers over a tick (R161), the octave reduction of the timer (R166), and the three recomputes of a
tick the channel survives with the flags they clear (R165 to R172). -/

namespace Sys2Proof.Machine

/-! ### The modulation contribution (R162, R163) -/

/-- SINE times range times depth, before it is scaled to its target (R162). -/
def rawModulation (p : Params) (m : Modulation) : Int :=
  sine p (m.modCounter >>> 8).toNat * (m.modRange.toNat : Int) * (m.modDepth.toNat : Int)

/-- The phase index is the top seven bits of the phase, and both scalings are floors (R162). -/
theorem modParam_eq (p : Params) (m : Modulation) :
    modParam p m = if m.modType = .volume then rawModulation p m * 60 / 16384 else rawModulation p m / 256 := by
  have hindex : (m.modCounter >>> 8).toNat = m.modCounter.toNat / 256 := by
    rw [BitVec.toNat_ushiftRight, Nat.shiftRight_eq_div_pow]
  rw [rawModulation, hindex]
  rfl

/-- "−127·255·255 .. 127·255·255" (R162). -/
theorem rawModulation_bounds (p : Params) (m : Modulation) :
    -8258175 ≤ rawModulation p m ∧ rawModulation p m ≤ 8258175 := by
  have hsine : |sine p (m.modCounter >>> 8).toNat| ≤ 127 := abs_le.mpr (sine_bounds p _)
  have hbyte (b : BitVec 8) : |(b.toNat : Int)| ≤ 255 := by
    rw [Nat.abs_cast]; exact_mod_cast Nat.le_of_lt_succ b.isLt
  have hprod : |rawModulation p m| ≤ 127 * 255 * 255 := by
    rw [rawModulation, abs_mul, abs_mul]
    exact mul_le_mul (mul_le_mul hsine (hbyte _) (abs_nonneg _) (by norm_num)) (hbyte _) (abs_nonneg _) (by norm_num)
  exact abs_le.mp hprod

/-- Settles O30: the four quarters of SINE are its definition, both scalings are divisions rounded down, and the bound
on the product bounds them. -/
theorem modulationContributionIsBounded : Obligations.ModulationContributionIsBounded := by
  unfold Obligations.ModulationContributionIsBounded
  intro p m
  have hparam := modParam_eq p m
  obtain ⟨hlo, hhi⟩ := rawModulation_bounds p m
  refine ⟨fun i _ => ⟨fun h => ?_, fun h h' => ?_, fun h h' => ?_, fun h => ?_⟩, fun hvol => ?_, fun hne => ?_,
    fun hvol => ?_, fun hne => ?_⟩
  · rw [sine, if_pos h]
  · rw [sine, if_neg (by omega), if_pos h']
  · rw [sine, if_neg (by omega), if_neg (by omega), if_pos h']
  · rw [sine, if_neg (by omega), if_neg (by omega), if_neg (by omega)]
  · rw [hparam, if_pos hvol]
    exact (Rat.floor_intCast_div_natCast (rawModulation p m * 60) 16384).symm
  · rw [hparam, if_neg hne]
    exact (Rat.floor_intCast_div_natCast (rawModulation p m) 256).symm
  · rw [hparam, if_pos hvol]
    omega
  · rw [hparam, if_neg hne]
    omega

/-! ### The modulation phase (R164) -/

/-- `n` phase advances move the phase by `n` steps of `speed << 6`. -/
theorem advancePhase_iterate (m : Modulation) (n : Nat) :
    (fun q : Modulation => { q with modCounter := advancePhase q })^[n] m =
      { m with modCounter := BitVec.ofNat 15 (m.modCounter.toNat + m.modSpeed.toNat * 64 * n) } := by
  induction n with
  | zero => simp
  | succ n ih =>
    rw [Function.iterate_succ_apply', ih, Modulation.mk.injEq]
    refine ⟨rfl, rfl, rfl, rfl, rfl, rfl, BitVec.eq_of_toNat_eq ?_⟩
    rw [advancePhase_toNat, BitVec.toNat_ofNat, BitVec.toNat_ofNat, mul_add_one, ← add_assoc]
    exact Nat.mod_add_mod ..

/-- After `n` advances the phase is back exactly when the period divides `n`: 0x8000 divides `n` steps of `64·s` just
when 512 divides `s·n`. -/
theorem phase_returns_iff (m : Modulation) (n : Nat) :
    ((fun q : Modulation => { q with modCounter := advancePhase q })^[n] m).modCounter = m.modCounter ↔
      512 / Nat.gcd m.modSpeed.toNat 512 ∣ n := by
  have hperiod : 512 / Nat.gcd m.modSpeed.toNat 512 ∣ n ↔ 512 ∣ m.modSpeed.toNat * n := by
    rw [Nat.gcd_comm, Nat.div_dvd_iff_dvd_mul (Nat.gcd_dvd_left ..) (Nat.gcd_pos_of_pos_left _ (by norm_num)),
      Nat.dvd_gcd_mul_iff_dvd_mul]
  have hphase := m.modCounter.isLt
  rw [hperiod, advancePhase_iterate, ← BitVec.toNat_inj, BitVec.toNat_ofNat, mul_right_comm]
  omega

/-- Settles O31: the period divides itself, and no smaller positive number. -/
theorem modulationPhaseHasItsPeriod : Obligations.ModulationPhaseHasItsPeriod := by
  unfold Obligations.ModulationPhaseHasItsPeriod
  exact fun m => ⟨(phase_returns_iff m _).mpr dvd_rfl,
    fun n hpos hlt hback => absurd (Nat.le_of_dvd hpos ((phase_returns_iff m n).mp hback)) (not_le.mpr hlt)⟩

/-! ### The octave reduction (R166) -/

/-- With a step for every octave the repeated addition or subtraction ends in remainder and quotient by 768. -/
theorem octaveReduce_eq (fuel : Nat) (q shift : Int) (h : (q / 768).natAbs ≤ fuel) :
    octaveReduce fuel q shift = (q % 768, shift + q / 768) := by
  induction fuel generalizing q shift with
  | zero => rw [octaveReduce, Prod.mk.injEq]; omega
  | succ n ih =>
    rw [octaveReduce]
    split_ifs with hneg hhigh
    · rw [ih _ _ (by omega), Prod.mk.injEq]; omega
    · rw [ih _ _ (by omega), Prod.mk.injEq]; omega
    · rw [Prod.mk.injEq]; omega

theorem clampNat_eq_max_min {lo hi : Nat} (v : Nat) (h : lo ≤ hi) : clampNat v lo hi = max lo (min v hi) := by
  unfold clampNat
  split_ifs <;> omega

/-- Settles O32: the reduction is division by 768, the shifts are the division and multiplication by powers of 2, and
saturating beyond 32 bits gives what the clamp gives. -/
theorem timerAdjustIsTheOctaveReduction : Obligations.TimerAdjustIsTheOctaveReduction := by
  unfold Obligations.TimerAdjustIsTheOctaveReduction
  intro p base pitch
  have hreduce : octaveReduce (pitch.natAbs / 768 + 1) (-pitch) 0 = (-pitch % 768, -pitch / 768) := by
    rw [octaveReduce_eq _ _ _ (by omega), zero_add]
  rw [timerAdjust, clampNat_eq_max_min _ (by decide), timerAdjustByReduction, hreduce]
  dsimp only
  have hoctave : octave = 768 := rfl
  rw [hoctave]
  refine congrArg (max 0x10) ?_
  generalize base.toNat * ((pitchEntry p (-pitch % 768).toNat).toNat + 65536) = prod
  by_cases hright : -pitch / 768 < 16
  · have hneg : ¬ 0 ≤ -pitch / 768 - 16 := by omega
    rw [if_neg hneg, if_pos hright, Nat.shiftRight_eq_div_pow, neg_sub]
    rfl
  · have hnonneg : 0 ≤ -pitch / 768 - 16 := by omega
    rw [if_pos hnonneg, if_neg hright, Nat.shiftLeft_eq, timerMax]
    split_ifs with hover
    · omega
    · rfl

/-! ### A tick the channel survives: the envelope step, then the cascade (R140) -/

/-- What the envelope step leaves of `c` for the cascade to read, and past Start the live register with it
(R142 to R146). -/
structure EnvelopeKept (c d : Channel) : Prop where
  vol   : d.vol = c.vol
  sweep : d.sweep = c.sweep
  mod   : d.mod = c.mod
  flags : d.flags = c.flags
  note  : d.note = { c.note with baseTimer := if c.state = .start then c.pend.timer else c.note.baseTimer }
  reg   : c.state ≠ .start → d.reg = c.reg

theorem execUpdate_survived {ch : ChanId} {s t : State} (h : exec (.update ch) s = .next t)
    (halive : (t.chan ch).state ≠ .none) :
    ∃ c, EnvelopeKept (s.chan ch) c ∧ t.chan ch = recomputeCascade s.params s.cfg.sampleRate (s.chan ch).state
      (sweepActive (s.chan ch).sweep) c := by
  obtain ⟨c, hstep, hne, -, -, rfl⟩ := execUpdate_alive h halive
  obtain ⟨-, -, -, -, hsweep, hmod, hflags, hvol, -, hnote, hlive⟩ := envelopeStep_keeps hstep hne
  rw [State.setRes_chan, State.chan_setChan_same]
  exact ⟨c, ⟨hvol, hsweep, hmod, hflags, hnote, fun hstart => (hlive hstart).1⟩, rfl⟩

/-! ### The modulation registers over a tick (R161, R164) -/

theorem modulationStep_regs_of_depth_zero (p : Params) {m : Modulation} (h : m.modDepth = 0#8) :
    (modulationStep p m).regs = m := by
  rw [modulationStep, if_pos h]

theorem modulationStep_regs_of_delay (p : Params) {m : Modulation} (h : m.modDepth ≠ 0#8)
    (hdelay : m.modDelayCnt < m.modDelay.toNat) :
    (modulationStep p m).regs = { m with modDelayCnt := m.modDelayCnt + 1 } := by
  rw [modulationStep, if_neg h, if_pos hdelay]

theorem modulationStep_regs_of_active (p : Params) {m : Modulation} (h : m.modDepth ≠ 0#8)
    (hover : m.modDelay.toNat ≤ m.modDelayCnt) :
    (modulationStep p m).regs = { m with modCounter := advancePhase m } := by
  rw [modulationStep, if_neg h, if_neg (not_lt.mpr hover)]

/-- Settles O29: the cascade runs one modulation step on the registers the envelope step left alone. -/
theorem updateAdvancesTheModulation : Obligations.UpdateAdvancesTheModulation := by
  unfold Obligations.UpdateAdvancesTheModulation
  intro ch s t hexec halive
  obtain ⟨c, hkept, hcascade⟩ := execUpdate_survived hexec halive
  rw [hcascade, recomputeCascade_mod, hkept.mod]
  exact ⟨modulationStep_regs_of_depth_zero _, modulationStep_regs_of_delay _,
    fun ⟨hdepth, hover⟩ => modulationStep_regs_of_active _ hdepth hover⟩

/-! ### When a recompute runs, and the modulation's share in it (R161, R165) -/

/-- The contribution of the modulation to the sum of target `u` on this tick (R162). -/
def Channel.modulationFor (c : Channel) (p : Params) (u : ModType) : Int :=
  if c.modulating ∧ c.mod.modType = u then modParam p c.mod else 0

section
variable (p : Params) (c : Channel)

/-- Modulation forces the recompute of its own target (R165). -/
theorem modulation_forces_iff (u : ModType) :
    ((modulationStep p c.mod).active && (modulationStep p c.mod).regs.modType == u) = true ↔
      c.modulating ∧ c.mod.modType = u := by
  obtain ⟨htype, hactive, -⟩ := modulationStep_yields p c.mod
  rw [Bool.and_eq_true, hactive, htype, beq_iff_eq]

/-- What the recomputes add for the modulation step is the contribution to their target. -/
theorem modulationStep_param_for (u : ModType) :
    (if (modulationStep p c.mod).active && (modulationStep p c.mod).regs.modType == u
      then (modulationStep p c.mod).param else 0) = c.modulationFor p u := by
  obtain ⟨-, hactive, hparam⟩ := modulationStep_yields p c.mod
  unfold Channel.modulationFor
  by_cases h : c.modulating ∧ c.mod.modType = u
  · rw [if_pos ((modulation_forces_iff p c u).mpr h), if_pos h, hparam (hactive.mpr h.1)]
  · rw [if_neg ((modulation_forces_iff p c u).not.mpr h), if_neg h]

end

section
variable {c d : Channel} (h : EnvelopeKept c d) (p : Params)
include h

/-- The timer's need, in the registers before the tick (R165). -/
theorem EnvelopeKept.timerNeeded_iff :
    timerNeeded d.flags (sweepActive c.sweep) (modulationStep p c.mod).active
        (modulationStep p c.mod).regs.modType = true ↔
      c.flags.updTmr = true ∨ c.sweeping ∨ (c.modulating ∧ c.mod.modType = .pitch) := by
  rw [timerNeeded, h.flags, Bool.or_eq_true, Bool.or_eq_true, sweepActive_iff, modulation_forces_iff, or_assoc]

/-- The volume's need; the entry state is the one before the envelope step (R165). -/
theorem EnvelopeKept.volumeNeeded_iff :
    volumeNeeded d.flags c.state (modulationStep p c.mod).active (modulationStep p c.mod).regs.modType = true ↔
      c.flags.updVol = true ∨ c.state ≠ .sustain ∨ (c.modulating ∧ c.mod.modType = .volume) := by
  rw [volumeNeeded, h.flags, Bool.or_eq_true, Bool.or_eq_true, bne_iff_ne, modulation_forces_iff, or_assoc]

/-- The pan's need (R165). -/
theorem EnvelopeKept.panNeeded_iff :
    panNeeded d.flags (modulationStep p c.mod).active (modulationStep p c.mod).regs.modType = true ↔
      c.flags.updPan = true ∨ (c.modulating ∧ c.mod.modType = .pan) := by
  rw [panNeeded, h.flags, Bool.or_eq_true, modulation_forces_iff]

end

/-! ### What each recompute alone decides (R167 to R171) -/

/-- The registers of the timer recompute: timer, increment and sweep. -/
def Channel.pitchOutputs (c : Channel) : BitVec 16 × Rat × Sweep := (c.reg.timer, c.reg.sampleIncrease, c.sweep)

/-- The registers of the volume recompute: magnitude, divider and cached volume. -/
def Channel.volumeOutputs (c : Channel) : VolMul × VolDiv × Nat := (c.reg.volumeMul, c.reg.volumeDiv, c.vol)

theorem Channel.pitchOutputs_eq_iff {c : Channel} {x : BitVec 16} {q : Rat} {w : Sweep} :
    c.pitchOutputs = (x, q, w) ↔ c.reg.timer = x ∧ c.reg.sampleIncrease = q ∧ c.sweep = w := by
  rw [pitchOutputs, Prod.mk.injEq, Prod.mk.injEq]

theorem Channel.volumeOutputs_eq_iff {c : Channel} {x : VolMul} {q : VolDiv} {n : Nat} :
    c.volumeOutputs = (x, q, n) ↔ c.reg.volumeMul = x ∧ c.reg.volumeDiv = q ∧ c.vol = n := by
  rw [volumeOutputs, Prod.mk.injEq, Prod.mk.injEq]

section
variable (p : Params) (rate : BitVec 32) (e : EnvState) (w : Bool) {c : Channel} {a : ModResult}
  (ha : modulationStep p c.mod = a)
include ha

theorem recomputeCascade_pitchOutputs : (recomputeCascade p rate e w c).pitchOutputs =
    if timerNeeded c.flags w a.active a.regs.modType
      then (timerRecompute p rate w a.active a.param { c with mod := a.regs }).pitchOutputs else c.pitchOutputs := by
  simp only [recomputeCascade, ha]
  split_ifs <;> rfl

theorem recomputeCascade_volumeOutputs : (recomputeCascade p rate e w c).volumeOutputs =
    if volumeNeeded c.flags e a.active a.regs.modType
      then (volumeRecompute p a.active a.param { c with mod := a.regs }).volumeOutputs else c.volumeOutputs := by
  simp only [recomputeCascade, ha]
  split_ifs <;> rfl

theorem recomputeCascade_panning : (recomputeCascade p rate e w c).reg.panning =
    if panNeeded c.flags a.active a.regs.modType
      then (panRecompute a.active a.param { c with mod := a.regs }).reg.panning else c.reg.panning := by
  simp only [recomputeCascade, ha]
  split_ifs <;> rfl

end

/-! ### The recompute flags (R31, R172) -/

/-- The cascade leaves no flag raised: a raised flag is a need (R165, R172). -/
theorem recomputeCascade_clears_flags (p : Params) (rate : BitVec 32) (e : EnvState) (w : Bool) (c : Channel) :
    (recomputeCascade p rate e w c).flags = ⟨false, false, false⟩ := by
  obtain ⟨hvol, htmr⟩ := recomputeCascade_flags_down p rate e w c
  have hpan : (recomputeCascade p rate e w c).flags.updPan = false := by
    rw [recomputeCascade_flags rfl]
    cases hup : c.flags.updPan <;> simp [panNeeded, hup]
  rw [RecomputeFlags.mk.injEq]
  exact ⟨hvol, hpan, htmr⟩

/-- Every flag raised in `f` is raised in `g`. -/
def RecomputeFlags.StayUp (f g : RecomputeFlags) : Prop := ∀ u, f.ofTarget u = true → g.ofTarget u = true

theorem RecomputeFlags.StayUp.of_eq {f g : RecomputeFlags} (h : g = f) : f.StayUp g := by
  rw [h]
  exact fun _ => id

theorem RecomputeFlags.stayUp_allFlags (f : RecomputeFlags) : f.StayUp allFlags := fun u _ => by cases u <;> rfl

/-- A command that writes one channel clears none of its flags if the channel written has them (R282). -/
theorem RecomputeFlags.StayUp.of_write {s : State} {ch : ChanId} {c : Channel} (r : Word)
    (h : (s.chan ch).flags.StayUp c.flags) :
    (s.chan ch).flags.StayUp (((s.setChan ch c).setRes r).chan ch).flags := by
  rwa [State.setRes_chan, State.chan_setChan_same]

/-- No part of TRACK_UPDATE clears a flag (R132 to R135). -/
theorem stayUp_trackParts (f : BitVec 5) (o : TrackOps) (t : Option ModType) (c : Channel) :
    c.flags.StayUp (trackParts f o t c).flags := fun u hup => by
  rw [trackParts_flag, hup, Bool.true_or, Bool.true_or]

/-- No envelope step writes a flag, the kill at the release's end included (R114, R142 to R146). -/
theorem envelopeStep_flags {p : Params} {c d : Channel} (h : envelopeStep p c = some d) : d.flags = c.flags := by
  unfold envelopeStep at h
  split at h
  · cases h; rfl
  · obtain ⟨a, rfl⟩ := attackStep_eq_some h; rfl
  · obtain ⟨a, rfl⟩ := attackStep_eq_some h; rfl
  · cases h
    rcases decayStep_cases p c with ⟨-, e⟩ | ⟨-, e⟩ <;> rw [e]
  · cases h; rfl
  · cases h
    rcases releaseStep_cases p c with ⟨-, e⟩ | ⟨-, e⟩ <;> rw [e]
    exact killAction_flags ..

/-- A tick that kills the channel ends before the cascade, so it writes no flag (R140, R172). -/
theorem tickChannel_flags_of_killed {p : Params} {rate : BitVec 32} {c d : Channel} (h : tickChannel p rate c = some d)
    (hdead : d.state = .none) : d.flags = c.flags := by
  unfold tickChannel at h
  split_ifs at h
  · cases h; exact killAction_flags ..
  · cases hstep : envelopeStep p c with
    | none => simp [hstep] at h
    | some c1 =>
      simp only [hstep] at h
      split_ifs at h with hkilled
      · cases h; exact envelopeStep_flags hstep
      · cases h; rw [recomputeCascade_state] at hdead; exact absurd hdead hkilled

theorem generateChannel_flags (p : Params) (mode : InterpMode) (m : SampleMemory) (ch : ChanId) (c : Channel) :
    (generateChannel p mode m ch c).chan.flags = c.flags := by
  unfold generateChannel
  split_ifs <;> rfl

theorem incrementChannel_flags {p : Params} {m : SampleMemory} {c d : Channel} (h : incrementChannel p m c = some d) :
    d.flags = c.flags := by
  rcases incrementChannel_cases rfl h with ⟨-, rfl⟩ | ⟨-, -, rfl⟩ | ⟨-, -, -, -, rfl⟩ | ⟨-, -, -, rfl⟩ <;> rfl

/-- A command that completes, but for an UPDATE the channel survives, clears no flag of that channel. -/
theorem exec_keeps_raised_flags {i : Instr} {s t : State} {ch : ChanId} (h : exec i s = .next t)
    (hi : i ≠ .update ch ∨ (t.chan ch).state = .none) : (s.chan ch).flags.StayUp (t.chan ch).flags := by
  by_cases hch : channelOf i = some ch
  case neg => exact .of_eq (congrArg Channel.flags ((exec_next_written h).chan_eq hch))
  cases i with
  | nop | initTables | setInterp | setRate => cases hch
  | triggerStart _ o =>
    cases hch
    obtain ⟨-, -, rfl⟩ := execTriggerStart_next h
    exact .of_write 0 (RecomputeFlags.stayUp_allFlags _)
  | noteParams _ o =>
    cases hch
    obtain ⟨-, -, -, -, rfl⟩ := execNoteParams_next h
    exact .of_write 0 (RecomputeFlags.stayUp_allFlags _)
  | release _ =>
    cases hch
    obtain ⟨-, -, -, rfl⟩ := execRelease_next h
    exact .of_write 0 (.of_eq (releaseAction_flags _))
  | kill _ =>
    cases hch
    cases h
    exact .of_write 0 (.of_eq (killAction_flags ..))
  | trackUpdate _ f o =>
    cases hch
    obtain ⟨-, -, ⟨-, rfl⟩ | ⟨-, -, rfl⟩⟩ := execTrackUpdate_next h
    · exact .of_eq rfl
    · exact .of_write 0 (stayUp_trackParts f o _ _)
  | update _ =>
    cases hch
    have hdead := hi.resolve_left (not_not_intro rfl)
    obtain ⟨-, ⟨-, rfl⟩ | ⟨-, -, c, htick, rfl⟩⟩ := execUpdate_next h
    · exact .of_eq rfl
    · rw [State.setRes_chan, State.chan_setChan_same] at hdead
      exact .of_write 0 (.of_eq (tickChannel_flags_of_killed htick hdead))
  | generateSample _ =>
    cases hch
    obtain ⟨-, rfl⟩ := execGenerateSample_next h
    exact .of_write _ (.of_eq (generateChannel_flags ..))
  | incrementSample _ =>
    cases hch
    obtain ⟨-, ⟨-, rfl⟩ | ⟨-, c, hmoved, rfl⟩⟩ := execIncrementSample_next h
    · exact .of_eq rfl
    · exact .of_write 0 (.of_eq (incrementChannel_flags hmoved))
  | read _ sel =>
    obtain ⟨r, -, rfl⟩ := execRead_next h
    exact .of_eq rfl

/-- Settles O36: the cascade of a survived tick clears all three flags, and nothing else clears any. -/
theorem flagsAreClearedOnlyByTheirRecompute : Obligations.FlagsAreClearedOnlyByTheirRecompute := by
  unfold Obligations.FlagsAreClearedOnlyByTheirRecompute
  refine ⟨fun ch s t hexec halive => ?_, fun i s t ch hexec hi => ?_⟩
  · obtain ⟨c, -, hcascade⟩ := execUpdate_survived hexec halive
    rw [hcascade, recomputeCascade_clears_flags]
  · have hup := exec_keeps_raised_flags hexec hi
    exact ⟨hup .volume, hup .pan, hup .pitch⟩

/-! ### The period and the two clamped sums (R167, R169, R171) -/

theorem clampInt_eq_max_min {lo hi : Int} (v : Int) (h : lo ≤ hi) : clampInt v lo hi = max lo (min hi v) := by
  unfold clampInt
  split_ifs <;> omega

/-- The period TimerAdjust gives on this tick: the note's base timer adjusted by tune, modulation and sweep (R167). -/
def Channel.adjustedPeriod (c : Channel) (p : Params) : Nat :=
  timerAdjust p (if c.state = .start then c.pend.timer else c.note.baseTimer).toNat
    (c.note.extTune + c.modulationFor p .pitch + (if c.sweeping then sweepDelta c.sweep else 0))

section
variable {c d : Channel} (h : EnvelopeKept c d) (p : Params)
include h

/-- The period of a timer recompute, in the registers before the tick (R167). -/
theorem EnvelopeKept.timerAdjust_eq :
    timerAdjust p d.note.baseTimer.toNat (pitchAdjustment { d with mod := (modulationStep p c.mod).regs }
        (sweepActive c.sweep) (modulationStep p c.mod).active (modulationStep p c.mod).param) =
      c.adjustedPeriod p := by
  rw [pitchAdjustment, modulationStep_param_for, h.note, h.sweep, if_congr (sweepActive_iff c.sweep) rfl rfl]
  rfl

/-- The clamped sum of a volume recompute (R169). -/
theorem EnvelopeKept.volumeTotal_eq :
    volumeTotal p { d with mod := (modulationStep p c.mod).regs } (modulationStep p c.mod).active
        (modulationStep p c.mod).param =
      max 0 (min (p.volMax : Int) (d.env.ampl / 128 + c.note.extAmpl + c.note.velocity
        + c.modulationFor p .volume + (p.volK : Int))) := by
  rw [volumeTotal, modulationStep_param_for, h.note, clampInt_eq_max_min _ (Int.natCast_nonneg _)]
  rfl

/-- The clamped sum of a pan recompute (R171). -/
theorem EnvelopeKept.panTotal_eq :
    panTotal { d with mod := (modulationStep p c.mod).regs } (modulationStep p c.mod).active
        (modulationStep p c.mod).param =
      max 0 (min 127 (c.note.pan + c.note.extPan + c.modulationFor p .pan + 64)) := by
  rw [panTotal, modulationStep_param_for, h.note, clampInt_eq_max_min _ (by decide)]
  rfl

end

/-! ### Timer, increment and sweep (R165 to R168) -/

/-- "`65536 − tmr`": the stored timer of an adjusted period (R167). -/
theorem negatedTimer_toNat {t : Nat} (h : timerMin ≤ t ∧ t ≤ timerMax) :
    (BitVec.ofInt 16 (-(t : Int))).toNat = 65536 - t := by
  obtain ⟨hlo, hhi⟩ := h
  unfold timerMin at hlo
  unfold timerMax at hhi
  rw [BitVec.toNat_ofInt]
  omega

/-- "so `65536 − c.reg.timer = tmr`, the adjusted period" (R168). -/
theorem incrementOf_negatedTimer (p : Params) (rate : BitVec 32) {t : Nat} (h : timerMin ≤ t ∧ t ≤ timerMax) :
    incrementOf p rate (BitVec.ofInt 16 (-(t : Int))) = (p.clockRate : ℚ) / (2 * (rate.toNat : ℚ) * (t : ℚ)) := by
  have hle : t ≤ 65536 := h.2.trans (by decide)
  rw [incrementOf, negatedTimer_toNat h, Nat.cast_sub hle]
  push_cast
  rw [sub_sub_cancel]

/-- The sweep after a timer recompute: an active automatic one has counted one tick (R167). -/
def Channel.sweepCounted (c : Channel) : Sweep :=
  { c.sweep with
    sweepCnt := if c.sweeping ∧ c.sweep.manualSweep = false then c.sweep.sweepCnt + 1 else c.sweep.sweepCnt }

theorem Channel.sweepCounted_eq (c : Channel) :
    (if sweepActive c.sweep && !c.sweep.manualSweep then { c.sweep with sweepCnt := c.sweep.sweepCnt + 1 }
      else c.sweep) = c.sweepCounted := by
  have hcounts : (sweepActive c.sweep && !c.sweep.manualSweep) = true ↔ c.sweeping ∧ c.sweep.manualSweep = false := by
    rw [Bool.and_eq_true, sweepActive_iff, Bool.not_eq_true']
  rw [if_congr hcounts rfl rfl, sweepCounted]
  split_ifs <;> rfl

/-- What a timer recompute writes, in the registers before the tick (R167, R168). -/
theorem EnvelopeKept.timerRecompute_outputs {c d : Channel} (h : EnvelopeKept c d) (p : Params) (rate : BitVec 32) :
    (timerRecompute p rate (sweepActive c.sweep) (modulationStep p c.mod).active (modulationStep p c.mod).param
      { d with mod := (modulationStep p c.mod).regs }).pitchOutputs =
      (BitVec.ofInt 16 (-(c.adjustedPeriod p : Int)),
        incrementOf p rate (BitVec.ofInt 16 (-(c.adjustedPeriod p : Int))), c.sweepCounted) := by
  rw [← h.timerAdjust_eq, ← c.sweepCounted_eq, ← h.sweep]
  rfl

/-- Settles O33: the flag, sweep and modulation tests are R165's need, and a needed recompute writes the negated period,
the increment of that period and the counted sweep. -/
theorem updateRecomputesTheTimer : Obligations.UpdateRecomputesTheTimer := by
  unfold Obligations.UpdateRecomputesTheTimer
  intro ch s t hexec halive
  obtain ⟨c, hkept, hcascade⟩ := execUpdate_survived hexec halive
  have hneeded := hkept.timerNeeded_iff s.params
  have hout := recomputeCascade_pitchOutputs s.params s.cfg.sampleRate (s.chan ch).state
    (sweepActive (s.chan ch).sweep) (congrArg (modulationStep s.params) hkept.mod)
  rw [← hcascade] at hout
  refine ⟨fun hneed => ?_, fun hnone => ?_⟩
  · have hperiod : timerMin ≤ (s.chan ch).adjustedPeriod s.params ∧ (s.chan ch).adjustedPeriod s.params ≤ timerMax :=
      timerAdjust_clamped ..
    rw [if_pos (hneeded.mpr hneed), hkept.timerRecompute_outputs] at hout
    obtain ⟨htimer, hincrement, hsweep⟩ := Channel.pitchOutputs_eq_iff.mp hout
    refine ⟨hperiod.1, hperiod.2, ?_, ?_, hsweep, ?_, ?_⟩
    · rw [htimer]; exact negatedTimer_toNat hperiod
    · rw [hincrement]; exact incrementOf_negatedTimer _ _ hperiod
    · rw [hcascade, recomputeCascade_clears_flags]
    · rw [hcascade, recomputeCascade_sameButOutputs]
      exact congrArg NoteRegs.baseTimer hkept.note
  · rw [if_neg (hneeded.not.mpr hnone)] at hout
    obtain ⟨htimer, hincrement, hsweep⟩ := Channel.pitchOutputs_eq_iff.mp hout
    refine ⟨hsweep.trans hkept.sweep, fun hstart => ?_⟩
    rw [htimer, hincrement, hkept.reg hstart]
    exact ⟨rfl, rfl⟩

/-! ### Volume (R165, R169, R170) -/

/-- "where 3 means shift-by-4" (R170). -/
theorem divShift_eq (d : VolDiv) : divShift d = if d = 3 then 4 else d.toNat := by
  revert d; decide

theorem linearVolume_eq_shift (mul : VolMul) (div : VolDiv) :
    linearVolume mul div = (mul.toNat <<< 4) >>> (if div = 3 then 4 else div.toNat) := by
  rw [linearVolume, divShift_eq, Nat.shiftRight_eq_div_pow, Nat.shiftLeft_eq]

/-- "0..2032 for divider 0", and less for the others (R170). -/
theorem linearVolume_le (mul : VolMul) (div : VolDiv) : linearVolume mul div ≤ 2032 := by
  have hmul := mul.isLt
  exact (Nat.div_le_self ..).trans (by omega)

/-- What a volume recompute writes, by its clamped sum (R169, R170). -/
theorem volumeRecompute_outputs (p : Params) (modOn : Bool) (x : Int) (c : Channel) :
    (volumeRecompute p modOn x c).volumeOutputs =
      (volEntry p (volumeTotal p c modOn x).toNat, dividerOf p (volumeTotal p c modOn x),
        linearVolume (volEntry p (volumeTotal p c modOn x).toNat) (dividerOf p (volumeTotal p c modOn x))) := rfl

/-- Settles O34: the flag, the entry state and the modulation test are R165's need, and a needed recompute writes the
table's magnitude and the divider of the clamped sum, with the volume they give. -/
theorem updateRecomputesTheVolume : Obligations.UpdateRecomputesTheVolume := by
  unfold Obligations.UpdateRecomputesTheVolume
  intro ch s t hexec halive
  obtain ⟨c, hkept, hcascade⟩ := execUpdate_survived hexec halive
  have hneeded := hkept.volumeNeeded_iff s.params
  have hout := recomputeCascade_volumeOutputs s.params s.cfg.sampleRate (s.chan ch).state
    (sweepActive (s.chan ch).sweep) (congrArg (modulationStep s.params) hkept.mod)
  rw [← hcascade] at hout
  refine ⟨fun hneed => ?_, fun hnone => ?_⟩
  · have henv : (t.chan ch).env = c.env := by rw [hcascade, recomputeCascade_env]
    rw [if_pos (hneeded.mpr hneed), volumeRecompute_outputs, hkept.volumeTotal_eq, ← henv] at hout
    obtain ⟨hmul, hdiv, hvol⟩ := Channel.volumeOutputs_eq_iff.mp hout
    rw [← hmul, ← hdiv] at hvol
    refine ⟨hmul, hdiv, hvol.trans (linearVolume_eq_shift ..), hvol.trans_le (linearVolume_le ..), ?_⟩
    rw [hcascade, recomputeCascade_clears_flags]
  · rw [if_neg (hneeded.not.mpr hnone)] at hout
    obtain ⟨hmul, hdiv, hvol⟩ := Channel.volumeOutputs_eq_iff.mp hout
    have hsustain : (s.chan ch).state = .sustain := not_not.mp fun hne => hnone (.inr (.inl hne))
    have hreg := hkept.reg (by simp [hsustain])
    exact ⟨hmul.trans (congrArg _ hreg), hdiv.trans (congrArg _ hreg), hvol.trans hkept.vol⟩

/-! ### Pan (R165, R171) -/

/-- A sum within the pan range is stored as it is (R171). -/
theorem pan_toNat {v : Int} (hlo : 0 ≤ v) (hhi : v ≤ 127) : ((BitVec.ofInt 7 v).toNat : Int) = v := by
  rw [BitVec.toNat_ofInt]
  omega

theorem panRecompute_panning (modOn : Bool) (x : Int) (c : Channel) :
    (panRecompute modOn x c).reg.panning = BitVec.ofInt 7 (panTotal c modOn x) := rfl

/-- Settles O35: the flag and the modulation test are R165's need, and a needed recompute stores the clamped sum. -/
theorem updateRecomputesThePan : Obligations.UpdateRecomputesThePan := by
  unfold Obligations.UpdateRecomputesThePan
  intro ch s t hexec halive
  obtain ⟨c, hkept, hcascade⟩ := execUpdate_survived hexec halive
  have hneeded := hkept.panNeeded_iff s.params
  have hout := recomputeCascade_panning s.params s.cfg.sampleRate (s.chan ch).state
    (sweepActive (s.chan ch).sweep) (congrArg (modulationStep s.params) hkept.mod)
  rw [← hcascade] at hout
  refine ⟨fun hneed => ⟨?_, ?_⟩, fun hnone hstart => ?_⟩
  · rw [hout, if_pos (hneeded.mpr hneed), panRecompute_panning, hkept.panTotal_eq]
    exact pan_toNat (le_max_left ..) (max_le (by decide) (min_le_left ..))
  · rw [hcascade, recomputeCascade_clears_flags]
  · rw [hout, if_neg (hneeded.not.mpr hnone), hkept.reg hstart]

end Sys2Proof.Machine

/-! PROOFS. The statements of spec/44_sample_generation.md: what GENERATE_SAMPLE returns (R190 to R193, R220 to R225),
what INCREMENT_SAMPLE writes (R194 to R197, R199), and the ring invariant that every step keeps (R198). -/

namespace Sys2Proof.Machine

/-! ### What GENERATE_SAMPLE answers (R190, R200) -/

theorem EnvState.not_pastStart_iff (e : EnvState) : e.pastStart = false ↔ e = .none ∨ e = .start := by
  cases e <;> decide

/-- Outside the playing phase, and on the ids without a PSG voice, a channel is silent (R190). -/
theorem generateChannel_silent (p : Params) (mode : InterpMode) (m : SampleMemory) {ch : ChanId} {c : Channel}
    (h : c.state.pastStart = false ∨ c.reg.samplePosition < 0 ∨ (c.reg.format = .psg ∧ ch.toNat < 8)) :
    generateChannel p mode m ch c = ⟨c, 0⟩ := by
  rw [EnvState.not_pastStart_iff] at h
  unfold generateChannel isDutyId isNoiseId dutyIdFirst noiseIdFirst
  split_ifs with hidle hneg hpcm hduty hnoise
  · rfl
  · rfl
  · exact absurd ((h.resolve_left hidle).resolve_left hneg).1 hpcm
  · have := ((h.resolve_left hidle).resolve_left hneg).2
    have := of_decide_eq_true hduty
    omega
  · have := ((h.resolve_left hidle).resolve_left hneg).2
    have := of_decide_eq_true hnoise
    omega
  · rfl

section
variable (p : Params) (mode : InterpMode) (m : SampleMemory) {ch : ChanId} {c : Channel}
  (hst : c.state.pastStart = true) (hpos : 0 ≤ c.reg.samplePosition)
include hst hpos

theorem generateChannel_of_playing : generateChannel p mode m ch c =
    if c.reg.format ≠ .psg then ⟨c, pcmSample p mode m c⟩
    else if isDutyId ch then ⟨c, dutySample p c⟩
    else if isNoiseId ch then ⟨{ c with reg := noiseAdvance c.reg }, wordOfInt (noiseAdvance c.reg).psgLast⟩
    else ⟨c, 0⟩ := by
  have hidle : ¬ (c.state = .none ∨ c.state = .start) := by
    rw [← EnvState.not_pastStart_iff, hst]; decide
  rw [generateChannel, if_neg hidle, if_neg (not_lt.mpr hpos)]

theorem generateChannel_of_pcm (hpcm : c.reg.format ≠ .psg) :
    generateChannel p mode m ch c = ⟨c, pcmSample p mode m c⟩ := by
  rw [generateChannel_of_playing p mode m hst hpos, if_pos hpcm]

theorem generateChannel_of_duty (hpsg : c.reg.format = .psg) (hlo : 8 ≤ ch.toNat) (hhi : ch.toNat ≤ 13) :
    generateChannel p mode m ch c = ⟨c, dutySample p c⟩ := by
  have hduty : isDutyId ch = true := decide_eq_true ⟨hlo, hhi⟩
  rw [generateChannel_of_playing p mode m hst hpos, if_neg (not_not_intro hpsg), if_pos hduty]

theorem generateChannel_of_noise (hpsg : c.reg.format = .psg) (hid : 14 ≤ ch.toNat) :
    generateChannel p mode m ch c =
      ⟨{ c with reg := noiseAdvance c.reg }, wordOfInt (noiseAdvance c.reg).psgLast⟩ := by
  have hnoise : isNoiseId ch = true := decide_eq_true ⟨hid, Nat.lt_succ_iff.mp ch.isLt⟩
  have hduty : ¬ isDutyId ch = true := fun h => by
    have := (of_decide_eq_true h).2
    unfold dutyIdLast at this
    omega
  rw [generateChannel_of_playing p mode m hst hpos, if_neg (not_not_intro hpsg), if_neg hduty, if_pos hnoise]

end

theorem execGenerateSample_of_ready {ch : ChanId} {s : State} (hready : s.cfg.tablesReady = true) {g : Generated}
    (hg : generateChannel s.params s.cfg.interp s.mem ch (s.chan ch) = g) :
    exec (.generateSample ch) s = .next ((s.setChan ch g.chan).setRes g.res) := by
  subst hg
  exact if_neg (by simp [hready])

/-- A sample that leaves its channel leaves everything but RES (R200). -/
theorem execGenerateSample_of_res {ch : ChanId} {s : State} (hready : s.cfg.tablesReady = true) {r : Word}
    (hg : generateChannel s.params s.cfg.interp s.mem ch (s.chan ch) = ⟨s.chan ch, r⟩) :
    exec (.generateSample ch) s = .next { s with res := r } := by
  rw [execGenerateSample_of_ready hready hg, State.setChan_chan_self]
  rfl

/-- Settles O38: each of the listed cases is one of silence. -/
theorem generateIsSilentOutsideThePlayingPhase : Obligations.GenerateIsSilentOutsideThePlayingPhase := by
  unfold Obligations.GenerateIsSilentOutsideThePlayingPhase
  exact fun ch s hready h => execGenerateSample_of_res hready (generateChannel_silent _ _ _ h)

/-- Settles O42: the position is not negative, so its floor modulo 8 is that of a natural number. -/
theorem generateReadsTheDutyTable : Obligations.GenerateReadsTheDutyTable := by
  unfold Obligations.GenerateReadsTheDutyTable
  intro ch s hready hst hpos hpsg hlo hhi
  rw [execGenerateSample_of_res hready (generateChannel_of_duty _ _ _ hst hpos hpsg hlo hhi)]
  have hfloor := ratFloor_nonneg hpos
  have hstep : (⌊(s.chan ch).reg.samplePosition⌋ % 8).toNat
      = (ratFloor (s.chan ch).reg.samplePosition).toNat % dutySteps := by
    rw [ratFloor_eq] at hfloor ⊢
    unfold dutySteps
    omega
  rw [hstep]
  rfl

/-! ### PCM without interpolation (R61, R191, R221) -/

/-- In a memory in canonical form a handle names the buffer that carries it (R61). -/
theorem bufferOf_of_mem {m : SampleMemory} (h : Memory.wf m = true) {b : Buffer} (hb : b ∈ m) :
    bufferOf m b.handle = b.samples := by
  induction m with
  | nil => cases hb
  | cons c rest ih =>
    obtain ⟨-, habove, hwf⟩ := (wf_cons_iff c rest).mp h
    rcases List.mem_cons.mp hb with rfl | hb
    · exact if_pos rfl
    · have hne : c.handle ≠ b.handle := fun e => (habove b hb).ne (congrArg BitVec.toNat e)
      rw [bufferOf, if_neg hne]
      exact ih hwf hb

/-- `SampleRead` inside the buffer a handle names is the element at that index (R61). -/
theorem sampleRead_of_bufferOf {m : SampleMemory} {src : Handle} {i : Nat} {x : Sample}
    (h : (bufferOf m src)[i]? = some x) : sampleRead m src i = x := by
  rw [sampleRead, h, Option.getD_some]

/-- Settles O39: PcmSample reads the memory at the floor, and a placed buffer is the one its handle names. -/
theorem generateNoneReadsTheNearestSample : Obligations.GenerateNoneReadsTheNearestSample := by
  unfold Obligations.GenerateNoneReadsTheNearestSample
  refine ⟨fun ch s hready hst hpos hpcm hmode => ?_, fun m hm => ⟨fun b hb i x hx => ?_, fun src xs => ?_⟩⟩
  · rw [execGenerateSample_of_res hready (generateChannel_of_pcm _ _ _ hst hpos hpcm), pcmSample, if_pos hmode]
    rfl
  · exact sampleRead_of_bufferOf (by rwa [bufferOf_of_mem hm hb])
  · refine ⟨placeBuffer_wf src xs hm, fun i x hx => ?_, fun other i hne => ?_⟩
    · exact sampleRead_of_bufferOf (by rwa [bufferOf_placeBuffer_same src xs hm])
    · rw [sampleRead, sampleRead, bufferOf_placeBuffer_ne m xs hne]

/-! ### The interpolating kernels (R220 to R225) -/

theorem ratTrunc_of_nonneg {v : Rat} (h : 0 ≤ v) : ratTrunc v = ⌊v⌋ := by
  rw [ratTrunc, Int.tdiv_eq_ediv_of_nonneg (Rat.num_nonneg.mpr h), Rat.floor_def']

theorem ratTrunc_of_neg {v : Rat} (h : v < 0) : ratTrunc v = ⌈v⌉ := by
  have hneg : ratTrunc (-v) = -ratTrunc v := by
    rw [ratTrunc, ratTrunc, Rat.num_neg_eq_neg_num, Rat.den_neg_eq_den, Int.neg_tdiv]
  rw [← neg_inj, ← hneg, ratTrunc_of_nonneg (neg_nonneg.mpr h.le), Int.floor_neg]

/-- Truncation toward zero is the floor from 0 on and the ceiling below (R10). -/
theorem eq_ratTrunc {v : Rat} {n : Int} (hfloor : 0 ≤ v → n = ⌊v⌋) (hceil : v < 0 → n = ⌈v⌉) : n = ratTrunc v := by
  rcases le_or_gt 0 v with hv | hv
  · rw [hfloor hv, ratTrunc_of_nonneg hv]
  · rw [hceil hv, ratTrunc_of_neg hv]

/-- Truncation keeps a value within integer bounds around 0 (R10). -/
theorem ratTrunc_mem {v : Rat} {b : Int} (hb : 0 ≤ b) (h : |v| ≤ b) : -b ≤ ratTrunc v ∧ ratTrunc v ≤ b := by
  obtain ⟨hlo, hhi⟩ := abs_le.mp h
  rcases le_or_gt 0 v with hv | hv
  · rw [ratTrunc_of_nonneg hv]
    have hnonneg := Int.floor_nonneg.mpr hv
    exact ⟨by omega, Int.floor_le_iff.mpr (by linarith)⟩
  · rw [ratTrunc_of_neg hv]
    have hnonpos : ⌈v⌉ ≤ 0 := Int.ceil_le.mpr (by exact_mod_cast hv.le)
    exact ⟨Int.le_ceil_iff.mpr (by push_cast; linarith), by omega⟩

/-- A kernel value that fits the result word is returned truncated toward zero (R220). -/
theorem kernelWord_of_value {p : Params} {mode : InterpMode} {win : List Sample} {f inc v : Rat}
    (hv : kernelValue p mode win f inc = some v) (hlo : -2147483648 ≤ ratTrunc v) (hhi : ratTrunc v ≤ 2147483647) :
    kernelWord p mode win f inc = BitVec.ofInt 32 (ratTrunc v) := by
  simp only [kernelWord, hv]
  exact if_pos ⟨hlo, hhi⟩

/-- A playing PCM channel with an interpolating mode runs the kernel at the fraction of its position (R191). -/
theorem execGenerateSample_of_kernel {ch : ChanId} {s : State} (hready : s.cfg.tablesReady = true)
    (hst : (s.chan ch).state.pastStart = true) (hpos : 0 ≤ (s.chan ch).reg.samplePosition)
    (hpcm : (s.chan ch).reg.format ≠ .psg) (hmode : s.cfg.interp ≠ .none) :
    exec (.generateSample ch) s = .next { s with
      res := kernelWord s.params s.cfg.interp (s.chan ch).ring.win (Int.fract (s.chan ch).reg.samplePosition)
        (s.chan ch).reg.sampleIncrease } := by
  rw [execGenerateSample_of_res hready (generateChannel_of_pcm _ _ _ hst hpos hpcm), pcmSample, if_neg hmode]
  rfl

/-- A window entry is a signed 16-bit sample (R62). -/
theorem winRat_mem (p : Params) (win : List Sample) (k : Int) : -32768 ≤ winRat p win k ∧ winRat p win k ≤ 32767 := by
  obtain ⟨hlo, hhi⟩ := signedOp_bounds (winAt p win k)
  unfold signedOp at hlo hhi
  norm_num at hlo hhi
  exact ⟨by unfold winRat; exact_mod_cast hlo, by unfold winRat; exact_mod_cast Int.lt_add_one_iff.mp hhi⟩

/-- One Horner step with a factor of size at most 1 adds the bounds. -/
theorem abs_mul_add_le {a b f A B : Rat} (hf : |f| ≤ 1) (ha : |a| ≤ A) (hb : |b| ≤ B) : |a * f + b| ≤ A + B := by
  have hmul : |a * f| ≤ A := by
    rw [abs_mul]
    exact (mul_le_of_le_one_right (abs_nonneg a) hf).trans ha
  exact (abs_add_le _ _).trans (add_le_add hmul hb)

section
variable (p : Params) (win : List Sample) {f : Rat} (h0 : 0 ≤ f) (h1 : f < 1)
include h0 h1

/-! Samples of 16 bits bound every coefficient of the kernels; the bounds are crude, and far below 2^31. -/

theorem linearKernel_abs_le : |linearKernel p win f| ≤ 2147483647 := by
  obtain ⟨l0, u0⟩ := winRat_mem p win 0
  obtain ⟨l1, u1⟩ := winRat_mem p win 1
  have hf : |f| ≤ 1 := abs_le.mpr ⟨by linarith, h1.le⟩
  have hstep : |winRat p win 1 - winRat p win 0| ≤ 65535 := abs_le.mpr ⟨by linarith, by linarith⟩
  have hbase : |winRat p win 0| ≤ 32768 := abs_le.mpr ⟨l0, by linarith⟩
  have hsum := abs_mul_add_le hf hstep hbase
  rw [linearKernel, add_comm, mul_comm]
  exact hsum.trans (by norm_num)

theorem lagrange4Kernel_abs_le : |lagrange4Kernel p win f| ≤ 2147483647 := by
  obtain ⟨lm, um⟩ := winRat_mem p win l4First
  obtain ⟨l0, u0⟩ := winRat_mem p win 0
  obtain ⟨l1, u1⟩ := winRat_mem p win 1
  obtain ⟨l2, u2⟩ := winRat_mem p win l4Last
  have hf : |f| ≤ 1 := abs_le.mpr ⟨by linarith, h1.le⟩
  unfold lagrange4Kernel
  dsimp only
  generalize winRat p win l4First = ym at *
  generalize winRat p win 0 = y0 at *
  generalize winRat p win 1 = y1 at *
  generalize winRat p win l4Last = y2 at *
  have c0 : |y0| ≤ 100000 := abs_le.mpr ⟨by linarith, by linarith⟩
  have c1 : |y1 - ym / 3 - y0 / 2 - y2 / 6| ≤ 100000 := abs_le.mpr ⟨by linarith, by linarith⟩
  have c2 : |(ym + y1) / 2 - y0| ≤ 100000 := abs_le.mpr ⟨by linarith, by linarith⟩
  have c3 : |(y2 - ym) / 6 + (y0 - y1) / 2| ≤ 100000 := abs_le.mpr ⟨by linarith, by linarith⟩
  exact (abs_mul_add_le hf (abs_mul_add_le hf (abs_mul_add_le hf c3 c2) c1) c0).trans (by norm_num)

theorem lagrange6Kernel_abs_le : |lagrange6Kernel p win f| ≤ 2147483647 := by
  obtain ⟨la, ua⟩ := winRat_mem p win l6First
  obtain ⟨lb, ub⟩ := winRat_mem p win (-1)
  obtain ⟨l0, u0⟩ := winRat_mem p win 0
  obtain ⟨l1, u1⟩ := winRat_mem p win 1
  obtain ⟨l2, u2⟩ := winRat_mem p win 2
  obtain ⟨l3, u3⟩ := winRat_mem p win l6Last
  have hz : |f - 1 / 2| ≤ 1 := abs_le.mpr ⟨by linarith, by linarith⟩
  unfold lagrange6Kernel
  dsimp only
  generalize winRat p win l6First = ya at *
  generalize winRat p win (-1) = yb at *
  generalize winRat p win 0 = y0 at *
  generalize winRat p win 1 = y1 at *
  generalize winRat p win 2 = y2 at *
  generalize winRat p win l6Last = y3 at *
  have c0 : |3 / 256 * (ya + y3) - 25 / 256 * (yb + y2) + 75 / 128 * (y0 + y1)| ≤ 100000 :=
    abs_le.mpr ⟨by linarith, by linarith⟩
  have c1 : |25 / 384 * (yb - y2) - 75 / 64 * (y0 - y1) - 3 / 640 * (ya - y3)| ≤ 100000 :=
    abs_le.mpr ⟨by linarith, by linarith⟩
  have c2 : |13 / 32 * (yb + y2) - 17 / 48 * (y0 + y1) - 5 / 96 * (ya + y3)| ≤ 100000 :=
    abs_le.mpr ⟨by linarith, by linarith⟩
  have c3 : |1 / 48 * (ya - y3) - 13 / 48 * (yb - y2) + 17 / 24 * (y0 - y1)| ≤ 100000 :=
    abs_le.mpr ⟨by linarith, by linarith⟩
  have c4 : |1 / 48 * (ya + y3) - 1 / 16 * (yb + y2) + 1 / 24 * (y0 + y1)| ≤ 100000 :=
    abs_le.mpr ⟨by linarith, by linarith⟩
  have c5 : |1 / 24 * (yb - y2) - 1 / 12 * (y0 - y1) - 1 / 120 * (ya - y3)| ≤ 100000 :=
    abs_le.mpr ⟨by linarith, by linarith⟩
  have hHorner := abs_mul_add_le hz (abs_mul_add_le hz (abs_mul_add_le hz (abs_mul_add_le hz
    (abs_mul_add_le hz c5 c4) c3) c2) c1) c0
  exact hHorner.trans (by norm_num)

end

/-- The three kernels are values of the mode that selects them, and fit the result word (R220, R222 to R224). -/
theorem exactKernel_of_mem {p : Params} {mode : InterpMode} {win : List Sample} {f v : Rat} (h0 : 0 ≤ f) (h1 : f < 1)
    (hv : (mode, v) ∈ [(InterpMode.linear, linearKernel p win f), (.lagrange4, lagrange4Kernel p win f),
      (.lagrange6, lagrange6Kernel p win f)]) (inc : Rat) :
    mode ≠ .none ∧ kernelValue p mode win f inc = some v ∧ |v| ≤ 2147483647 := by
  simp only [List.mem_cons, Prod.mk.injEq, List.not_mem_nil, or_false] at hv
  rcases hv with ⟨rfl, rfl⟩ | ⟨rfl, rfl⟩ | ⟨rfl, rfl⟩
  · exact ⟨nofun, rfl, linearKernel_abs_le p win h0 h1⟩
  · exact ⟨nofun, rfl, lagrange4Kernel_abs_le p win h0 h1⟩
  · exact ⟨nofun, rfl, lagrange6Kernel_abs_le p win h0 h1⟩

/-- Settles O40: samples of 16 bits bound the three kernels far inside the result word. -/
theorem generateRunsTheExactKernels : Obligations.GenerateRunsTheExactKernels := by
  unfold Obligations.GenerateRunsTheExactKernels
  dsimp only
  intro ch s hready hst hpos hpcm v hv
  obtain ⟨hmode, hvalue, hbound⟩ := exactKernel_of_mem (Int.fract_nonneg _) (Int.fract_lt_one _) hv
    (s.chan ch).reg.sampleIncrease
  obtain ⟨hlo, hhi⟩ := ratTrunc_mem (b := 2147483647) (by decide) (by exact_mod_cast hbound)
  refine ⟨ratTrunc v, ratTrunc_of_nonneg, ratTrunc_of_neg, by omega, hhi, ?_⟩
  rw [execGenerateSample_of_kernel hready hst hpos hpcm hmode, kernelWord_of_value hvalue (by omega) hhi]

theorem sincTaps_eq (p : Params) :
    sincTaps p = (List.range (2 * p.sincWidth)).map fun j : Nat => (p.sincWidth : Int) - j := by
  simp [sincTaps, ← List.map_eq_flatMap]

/-- The taps, as R225 lists them, are the integers from -(W - 1) to W. -/
theorem sincTaps_sum (p : Params) (g : Int → Rat) :
    ((sincTaps p).map g).sum = ∑ i ∈ Finset.Icc (-((p.sincWidth : Int) - 1)) p.sincWidth, g i := by
  have hnodup : (sincTaps p).Nodup := by
    rw [sincTaps_eq]
    exact List.Nodup.map (fun a b hab => by simpa using hab) List.nodup_range
  have hmem : (sincTaps p).toFinset = Finset.Icc (-((p.sincWidth : Int) - 1)) p.sincWidth := by
    ext i
    simp only [sincTaps_eq, List.mem_toFinset, List.mem_map, List.mem_range, Finset.mem_Icc]
    refine ⟨fun ⟨j, hj, hi⟩ => by omega, fun hi => ⟨((p.sincWidth : Int) - i).toNat, by omega, by omega⟩⟩
  rw [← hmem, List.sum_toFinset g hnodup]

/-- The table step of R225 rounds down: it is not negative. -/
theorem sincStep_eq_floor (p : Params) (inc : Rat) :
    sincStep p inc = if 1 < inc then ⌊((p.sincResolution : Int) : Rat) / inc⌋ else p.sincResolution := by
  unfold sincStep
  split_ifs with hdown
  · have hinc : (0 : Rat) ≤ inc := by linarith
    rw [ratTrunc_of_nonneg (div_nonneg (Nat.cast_nonneg _) hinc), Int.cast_natCast]
  · rfl

/-- The weight of a tap in the terms of R225: both table indices are distances in steps, rounded down. -/
theorem sincWeight_eq {p : Params} {f inc : Rat} {step shift : Int}
    (hstep : step = if 1 < inc then ⌊((p.sincResolution : Int) : Rat) / inc⌋ else (p.sincResolution : Int))
    (hshift : shift = ⌊f * ((p.sincResolution : Int) : Rat)⌋) (i : Int) :
    sincWeight p f inc i =
      sincEntry p (⌊((shift * step : Int) : Rat) / ((p.sincResolution : Int) : Rat)⌋ - i * step).natAbs *
        windowEntry p (shift - i * (p.sincResolution : Int)).natAbs := by
  have hshift' : sincShift p f = shift := by rw [hshift, Int.cast_natCast]; rfl
  rw [← sincStep_eq_floor] at hstep
  rw [Int.cast_natCast p.sincResolution, Rat.floor_intCast_div_natCast, hstep, ← hshift']
  rfl

/-- Where the weight sum is not 0 the sinc is a value of its mode (R225). -/
theorem kernelValue_sinc {p : Params} {win : List Sample} {f inc : Rat} (h : sincWeightSum p f inc ≠ 0) :
    kernelValue p .sinc win f inc =
      some (((sincTaps p).map fun i => winRat p win i * sincWeight p f inc i).sum / sincWeightSum p f inc) :=
  if_neg h

/-- Settles O41: the taps are the integers of the interval, and the table indices round down. -/
theorem generateRunsTheWindowedSinc : Obligations.GenerateRunsTheWindowedSinc := by
  unfold Obligations.GenerateRunsTheWindowedSinc
  dsimp only
  intro ch s hready hst hpos hpcm hmode
  have hexec := execGenerateSample_of_kernel hready hst hpos hpcm (by simp [hmode])
  refine ⟨⟨_, hexec⟩, fun n hksum hfloor hceil hlo hhi => ?_⟩
  simp only [← sincWeight_eq rfl rfl, ← sincTaps_sum] at hksum hfloor hceil
  obtain rfl := eq_ratTrunc hfloor hceil
  rw [hexec, hmode, kernelWord_of_value (kernelValue_sinc hksum) hlo hhi]
  rfl

/-! ### The noise register (R193, R274) -/

/-- One step of the Galois register on the register and its output, in R193's words. -/
def noisePairStep (q : BitVec 15 × Int) : BitVec 15 × Int :=
  if q.1.getLsbD 0 then ((q.1 >>> 1) ^^^ 0x6000#15, -32767) else (q.1 >>> 1, 32767)

theorem noiseRun_eq_iterate (n : Nat) (r : Noise) :
    ((noiseRun n r).psgX, (noiseRun n r).psgLast) = noisePairStep^[n] (r.psgX, r.psgLast) := by
  induction n generalizing r with
  | zero => rfl
  | succ n ih =>
    have hstep : noisePairStep (r.psgX, r.psgLast) = ((noiseStep r.psgX).psgX, (noiseStep r.psgX).psgLast) := by
      unfold noisePairStep noiseStep
      dsimp only
      split_ifs <;> rfl
    rw [Function.iterate_succ_apply, hstep, ← ih]
    rfl

theorem noiseRun_add (n k : Nat) (r : Noise) : noiseRun (n + k) r = noiseRun k (noiseRun n r) := by
  induction n generalizing r with
  | zero => rw [Nat.zero_add]; rfl
  | succ n ih => rw [Nat.succ_add_eq_add_succ, Nat.add_succ]; exact ih (noiseStep r.psgX)

/-- NoiseSample as one write of the three noise registers: at the same integer position it runs the register 0 steps
(R193). -/
theorem noiseAdvance_eq (g : SoundRegister) :
    noiseAdvance g =
      { g with
        psgX := (noiseRun ((ratFloor g.samplePosition).toNat - g.psgLastCount) ⟨g.psgX, g.psgLast⟩).psgX
        psgLast := (noiseRun ((ratFloor g.samplePosition).toNat - g.psgLastCount) ⟨g.psgX, g.psgLast⟩).psgLast
        psgLastCount := (ratFloor g.samplePosition).toNat } := by
  unfold noiseAdvance
  dsimp only
  split_ifs with hsame
  · rw [← hsame, Nat.sub_self]; rfl
  · rfl

/-- Settles O43: the noise path advances the register by the positions passed, step by step R193's. -/
theorem generateRunsTheNoiseRegister : Obligations.GenerateRunsTheNoiseRegister := by
  unfold Obligations.GenerateRunsTheNoiseRegister
  intro ch s hready hst hpos hpsg hid g pos q
  have hq : q = ((noiseRun (pos - g.psgLastCount) ⟨g.psgX, g.psgLast⟩).psgX,
      (noiseRun (pos - g.psgLastCount) ⟨g.psgX, g.psgLast⟩).psgLast) :=
    (noiseRun_eq_iterate (pos - g.psgLastCount) ⟨g.psgX, g.psgLast⟩).symm
  rw [execGenerateSample_of_ready hready (generateChannel_of_noise _ _ _ hst hpos hpsg hid), noiseAdvance_eq, hq]
  rfl

/-- Settles O44: the steps to the first position and from there to the later one are the steps to the later one. -/
theorem noiseAdvancesByPositionNotByCall : Obligations.NoiseAdvancesByPositionNotByCall := by
  unfold Obligations.NoiseAdvancesByPositionNotByCall
  intro g later hcount hlater
  have hsteps : (ratFloor later).toNat - g.psgLastCount =
      ((ratFloor g.samplePosition).toNat - g.psgLastCount) +
        ((ratFloor later).toNat - (ratFloor g.samplePosition).toNat) := by
    rw [ratFloor_eq, ratFloor_eq]
    omega
  simp only [noiseAdvance_eq, hsteps, noiseRun_add]

/-- At the same integer position the noise register stays (R193). -/
theorem noiseAdvance_idem (g : SoundRegister) : noiseAdvance (noiseAdvance g) = noiseAdvance g := by
  rw [noiseAdvance_eq g]
  exact if_pos rfl

/-- "The only path that changes state" is the noise path (R190). -/
theorem generateChannel_chan_cases (p : Params) (mode : InterpMode) (m : SampleMemory) (ch : ChanId) (c : Channel) :
    (generateChannel p mode m ch c).chan = c ∨
      (c.state.pastStart = true ∧ 0 ≤ c.reg.samplePosition ∧ c.reg.format = .psg ∧ 14 ≤ ch.toNat) := by
  unfold generateChannel
  split_ifs with hidle hneg hpcm hduty hnoise
  · exact .inl rfl
  · exact .inl rfl
  · exact .inl rfl
  · exact .inl rfl
  · rw [← EnvState.not_pastStart_iff, Bool.not_eq_false] at hidle
    exact .inr ⟨hidle, not_lt.mp hneg, not_not.mp hpcm, (of_decide_eq_true hnoise).1⟩
  · exact .inl rfl

theorem generateChannel_idem (p : Params) (mode : InterpMode) (m : SampleMemory) (ch : ChanId) (c : Channel) :
    generateChannel p mode m ch (generateChannel p mode m ch c).chan = generateChannel p mode m ch c := by
  rcases generateChannel_chan_cases p mode m ch c with hsame | ⟨hst, hpos, hpsg, hid⟩
  · rw [hsame]
  · have hpos' : 0 ≤ (noiseAdvance c.reg).samplePosition := by rw [noiseAdvance_eq]; exact hpos
    have hpsg' : (noiseAdvance c.reg).format = .psg := by rw [noiseAdvance_eq]; exact hpsg
    rw [generateChannel_of_noise p mode m hst hpos hpsg hid,
      generateChannel_of_noise p mode m (c := { c with reg := noiseAdvance c.reg }) hst hpos' hpsg' hid,
      noiseAdvance_idem]

/-- Settles O45: the channel a sample leaves gives the same sample and the same channel again. -/
theorem generateTwiceIsGenerateOnce : Obligations.GenerateTwiceIsGenerateOnce := by
  unfold Obligations.GenerateTwiceIsGenerateOnce
  intro ch s t hexec
  obtain ⟨hready, rfl⟩ := execGenerateSample_next hexec
  have hidem := generateChannel_idem s.params s.cfg.interp s.mem ch (s.chan ch)
  generalize generateChannel s.params s.cfg.interp s.mem ch (s.chan ch) = g at hidem ⊢
  have hagain := execGenerateSample_of_ready (ch := ch) (s := (s.setChan ch g.chan).setRes g.res) hready (g := g)
    (by rw [State.setRes_chan, State.chan_setChan_same]; exact hidem)
  rw [hagain, State.setChan_setRes_comm, State.setChan_setChan, State.setRes_setRes]

/-! ### What INCREMENT_SAMPLE answers (R194, R199, R200) -/

theorem execIncrementSample_of_silent {ch : ChanId} {s : State} (hready : s.cfg.tablesReady = true)
    (hst : (s.chan ch).state.pastStart = false) : exec (.incrementSample ch) s = .next (s.setRes 0) := by
  show execIncrementSample ch s = _
  rw [execIncrementSample, if_neg (by simp [hready]), if_pos ((EnvState.not_pastStart_iff _).mp hst)]

theorem execIncrementSample_of_moved {ch : ChanId} {s : State} {c : Channel} (hready : s.cfg.tablesReady = true)
    (hst : (s.chan ch).state.pastStart = true) (hmoved : incrementChannel s.params s.mem (s.chan ch) = some c) :
    exec (.incrementSample ch) s = s.complete ch c 0 := by
  have hidle : ¬ ((s.chan ch).state = .none ∨ (s.chan ch).state = .start) := by
    rw [← EnvState.not_pastStart_iff, hst]; decide
  show execIncrementSample ch s = _
  rw [execIncrementSample, if_neg (by simp [hready]), if_neg hidle, hmoved]

theorem incrementChannel_of_psg (p : Params) (m : SampleMemory) {c : Channel} (hpsg : c.reg.format = .psg) :
    incrementChannel p m c = some (c.movedTo (c.reg.samplePosition + c.reg.sampleIncrease) c.ring) :=
  if_pos hpsg

/-- Settles O51: the two checks of INCREMENT_SAMPLE, and the position of a PSG note. -/
theorem incrementOfIdleAndPsgChannels : Obligations.IncrementOfIdleAndPsgChannels := by
  unfold Obligations.IncrementOfIdleAndPsgChannels
  intro ch s hready
  exact ⟨execIncrementSample_of_silent hready,
    fun hst hpsg => execIncrementSample_of_moved hready hst (incrementChannel_of_psg _ _ hpsg)⟩

section
variable (p : Params) (m : SampleMemory) {c : Channel} (hpcm : c.reg.format ≠ .psg) {new : Rat}
  (hnew : new = c.reg.samplePosition + c.reg.sampleIncrease)
include hpcm hnew

theorem incrementChannel_below_end (hend : new < c.reg.totalLength) :
    incrementChannel p m c = some (c.movedTo new (advanceRing p m c.reg c.reg.samplePosition new c.ring)) := by
  subst hnew
  exact (if_neg hpcm).trans (if_neg (not_le.mpr hend))

theorem incrementChannel_of_loop (hend : (c.reg.totalLength : Rat) ≤ new) (hloop : c.reg.repeatMode = .loop)
    (hlen : c.reg.length ≠ 0) :
    incrementChannel p m c = some (c.movedTo (new - (wrapCount new c.reg.length c.reg.totalLength : Rat) * c.reg.length)
      (advanceRing p m c.reg c.reg.samplePosition new c.ring)) := by
  subst hnew
  exact ((if_neg hpcm).trans (if_pos hend)).trans ((if_pos hloop).trans (if_neg hlen))

theorem incrementChannel_of_end (hend : (c.reg.totalLength : Rat) ≤ new) (hloop : c.reg.repeatMode ≠ .loop) :
    incrementChannel p m c = some (killAction p c) := by
  subst hnew
  exact ((if_neg hpcm).trans (if_pos hend)).trans (if_neg hloop)

end

/-- From the playing part on, an advance pushes the integer delta (R194). -/
theorem advanceRing_of_playing (p : Params) (m : SampleMemory) (g : SoundRegister) {old new : Rat} (hold : 0 ≤ old)
    (hnew : 0 ≤ new) (r : Ring) : advanceRing p m g old new r = (slideIn m g)^[(⌊new⌋ - ⌊old⌋).toNat] r := by
  rw [advanceRing, if_neg (not_lt.mpr hnew), if_neg (not_lt.mpr hold), ringPushMany_eq_iterate]
  rfl

/-- On the crossing an advance fills the ring and pushes up to the new position (R194, R196). -/
theorem advanceRing_of_crossing (p : Params) (m : SampleMemory) (g : SoundRegister) {old new : Rat} (hold : old < 0)
    (hnew : 0 ≤ new) (r : Ring) : advanceRing p m g old new r =
      (slideIn m g)^[⌊new⌋.toNat] ((slideIn m g)^[p.half + 1] (copiesOfFirst p m g)) := by
  rw [advanceRing, if_neg (not_lt.mpr hnew), if_pos hold, ringPushMany_eq_iterate, ringStart_eq_iterate]
  rfl

/-- Settles O52: below the total length the position and the ring move, the ring by its three cases. -/
theorem incrementPushesExactlyTheIntegerDelta : Obligations.IncrementPushesExactlyTheIntegerDelta := by
  unfold Obligations.IncrementPushesExactlyTheIntegerDelta
  intro ch s hready hst hpcm c old new push copies hend
  refine ⟨_, execIncrementSample_of_moved hready hst (incrementChannel_below_end _ _ hpcm rfl hend), rfl,
    s.sameExcept_complete .., ?_⟩
  rw [State.setRes_chan, State.chan_setChan_same]
  exact ⟨rfl, fun hneg => advanceRing_preroll _ _ _ _ hneg _,
    fun hold hnew => advanceRing_of_playing _ _ _ hold hnew _,
    fun hold hnew => advanceRing_of_crossing _ _ _ hold hnew _⟩

/-! ### The end of data (R199) -/

/-- Repeated subtraction ends at the first position below the total length (R199). -/
theorem wrapBySubtraction_eq {length total : Nat} (n : Nat) {fuel : Nat} {pos : Rat}
    (habove : ∀ k : Nat, k < n → (total : Rat) ≤ pos - k * length) (hbelow : pos - n * length < total)
    (hfuel : n ≤ fuel) : wrapBySubtraction length total fuel pos = pos - n * length := by
  induction n generalizing fuel pos with
  | zero =>
    rw [Nat.cast_zero, zero_mul, sub_zero] at hbelow ⊢
    cases fuel with
    | zero => rfl
    | succ fuel => exact if_neg (not_le.mpr hbelow)
  | succ n ih =>
    obtain ⟨fuel, rfl⟩ := Nat.exists_eq_add_of_le' hfuel
    have hshift : ∀ k : Nat, pos - length - k * length = pos - (k + 1 : Nat) * length := fun k => by
      push_cast; ring
    have hfirst : (total : Rat) ≤ pos := by simpa using habove 0 (Nat.succ_pos n)
    calc wrapBySubtraction length total (fuel + (n + 1)) pos
        = wrapBySubtraction length total (fuel + n) (pos - length) := if_pos hfirst
      _ = pos - length - n * length := by
        refine ih (fun k hk => ?_) ?_ (Nat.le_add_left n fuel)
        · rw [hshift]; exact habove (k + 1) (Nat.succ_lt_succ hk)
        · rw [hshift]; exact hbelow
      _ = pos - (n + 1 : Nat) * length := hshift n

/-- Settles O53: the wrap subtracts whole loops, the least number that leads below the total length, and the other
modes run KillAction. -/
theorem incrementWrapsTheLoopOrKills : Obligations.IncrementWrapsTheLoopOrKills := by
  unfold Obligations.IncrementWrapsTheLoopOrKills
  intro ch s hready hst hpcm c old new push copies hend
  have hnew : 0 ≤ new := (Nat.cast_nonneg _).trans hend
  refine ⟨fun hloop hlen htotal => ?_, fun hloop => ?_⟩
  · obtain ⟨hlo, hhi, habove⟩ := wrapCount_lands hlen hend
    have hstart : (c.reg.loopStart : Rat) = c.reg.totalLength - c.reg.length := by
      rw [htotal]; push_cast; ring
    refine ⟨_, execIncrementSample_of_moved hready hst
      (incrementChannel_of_loop _ _ hpcm rfl hend hloop hlen.ne'), rfl, s.sameExcept_complete .., ?_⟩
    rw [State.setRes_chan, State.chan_setChan_same]
    refine ⟨rfl, hstart.trans_le hlo, hhi, ?_, fun hold => advanceRing_of_playing _ _ _ hold hnew _,
      fun hold => advanceRing_of_crossing _ _ _ hold hnew _, _, fun n hn => wrapBySubtraction_eq _ habove hhi hn⟩
    exact_mod_cast Int.fract_sub_natCast new (wrapCount new c.reg.length c.reg.totalLength * c.reg.length)
  · refine ⟨_, execIncrementSample_of_moved hready hst (incrementChannel_of_end _ _ hpcm rfl hend hloop), rfl,
      s.sameExcept_complete .., ?_⟩
    rw [State.setRes_chan, State.chan_setChan_same]
    exact ⟨killAction_killedFrom .., congrArg Envelope.ampl (killAction_env ..)⟩

/-! ### Every command keeps the geometry and the ring of a channel (R67, R198) -/

/-- Checked geometry and a ring that tracks the note: what the ring invariant needs of a channel to last. -/
structure Channel.Tracks (p : Params) (m : SampleMemory) (c : Channel) : Prop where
  geometry : c.GeometryValid
  ring     : c.RingTracksNote p m

/-- `d` plays what `c` plays: it waits or sounds only where `c` does, with the same snapshot and ring, and of the live
register only the outputs, the noise registers and the increment may differ. -/
structure Channel.SamePlayback (c d : Channel) : Prop where
  starts   : d.state = .start → c.state = .start
  sounds   : d.state.pastStart = true → c.state.pastStart = true
  pend     : d.pend = c.pend
  ring     : d.ring = c.ring
  reg      : d.reg = { c.reg with
    volumeMul := d.reg.volumeMul, volumeDiv := d.reg.volumeDiv, panning := d.reg.panning, timer := d.reg.timer,
    psgX := d.reg.psgX, psgLast := d.reg.psgLast, psgLastCount := d.reg.psgLastCount,
    sampleIncrease := d.reg.sampleIncrease }
  increase : 0 ≤ c.reg.sampleIncrease → 0 ≤ d.reg.sampleIncrease

theorem Channel.Tracks.of_samePlayback {p : Params} {m : SampleMemory} {c d : Channel} (h : c.Tracks p m)
    (hsame : c.SamePlayback d) : d.Tracks p m := by
  obtain ⟨hstarts, hsounds, hpend, hring, hreg, hinc⟩ := hsame
  refine ⟨⟨fun hst => ?_, fun hst => ?_⟩, ⟨?_, hinc h.ring.increase, fun hst => ?_, fun hst => ?_⟩⟩
  · rw [hpend]; exact h.geometry.pending (hstarts hst)
  · rw [hreg]; exact h.geometry.live (hsounds hst)
  · rw [hring]; exact h.ring.size
  · rw [hreg, hring]; exact h.ring.preroll (hsounds hst)
  · rw [hreg, hring]; exact h.ring.playing (hsounds hst)

theorem killAction_tracks (p : Params) (m : SampleMemory) (c : Channel) : (killAction p c).Tracks p m :=
  ⟨⟨nofun, nofun⟩, killAction_ringTracksNote p m c⟩

/-- TRIGGER_START checks the geometry it latches, and leaves the ring until the Start action (R110). -/
theorem Channel.Tracks.triggerLatch {p : Params} {m : SampleMemory} {c : Channel} (h : c.Tracks p m) {o : TriggerOps}
    (hcheck : triggerCheck p o = none) : (triggerLatch c o).Tracks p m := by
  obtain ⟨hrep, -, hpcm⟩ := triggerCheck_accepts hcheck
  exact ⟨⟨fun _ => ⟨hrep, hpcm⟩, nofun⟩, ⟨h.ring.size, h.ring.increase, nofun, nofun⟩⟩

theorem noteLatch_samePlayback (c : Channel) (o : NoteOps) : c.SamePlayback (noteLatch c o) :=
  ⟨id, id, rfl, rfl, rfl, id⟩

theorem releaseAction_samePlayback {c : Channel} (hst : c.state.pastStart = true) :
    c.SamePlayback (releaseAction c) :=
  ⟨nofun, fun _ => hst, rfl, rfl, rfl, id⟩

theorem trackParts_samePlayback (f : BitVec 5) (o : TrackOps) (t : Option ModType) (c : Channel) :
    c.SamePlayback (trackParts f o t c) := by
  obtain ⟨hreg, -, -, hring, hpend, -⟩ := sameOutputs_trackParts f o t c
  refine ⟨fun hst => ?_, trackParts_pastStart f o t c, hpend, hring, ?_, ?_⟩
  · by_contra hne
    obtain ⟨-, hrel, -⟩ := trackParts_moves (fun heq => hne (heq ▸ hst))
    simp [hst] at hrel
  · rw [hreg]
  · rw [hreg]; exact id

/-- The Start action makes the checked snapshot the live register and leaves the ring empty in pre-roll (R142). -/
theorem Channel.Tracks.startAction {p : Params} {m : SampleMemory} {c : Channel} (h : c.Tracks p m) (hp : p.Valid)
    (hst : c.state = .start) : (startAction p c).Tracks p m := by
  obtain ⟨hrep, hpcm⟩ := h.geometry.pending hst
  have hpreroll : (Machine.startAction p c).reg.samplePosition < 0 := by
    show (if crFormat c.pend.cr = .psg then p.prerollPsg else p.prerollPcm) < 0
    split_ifs
    · exact hp.preroll_psg
    · exact hp.preroll_pcm
  exact ⟨⟨nofun, fun _ => ⟨hrep, rfl, hpcm⟩⟩,
    ⟨List.length_replicate, le_refl _, fun _ _ _ => rfl, fun _ _ hpos => absurd hpos (not_le.mpr hpreroll)⟩⟩

/-- Where the envelope stands past Start is nothing to the ring (R143 to R146). -/
theorem Channel.Tracks.atLevel {p : Params} {m : SampleMemory} {c : Channel} (h : c.Tracks p m)
    (hst : c.state.pastStart = true) {e : EnvState} (he : e.pastStart = true) (a : Int) :
    (c.atLevel e a).Tracks p m :=
  h.of_samePlayback ⟨fun hs => absurd hs (EnvState.ne_start_of_pastStart he), fun _ => hst, rfl, rfl, rfl, id⟩

theorem Channel.Tracks.attackStep {p : Params} {m : SampleMemory} {c d : Channel} (h : c.Tracks p m)
    (hst : c.state.pastStart = true) (hd : attackStep c = some d) : d.Tracks p m := by
  obtain ⟨a, rfl⟩ := attackStep_eq_some hd
  exact h.atLevel hst (by split_ifs <;> [rfl; exact hst]) a

theorem Channel.Tracks.envelopeStep {p : Params} {m : SampleMemory} {c d : Channel} (h : c.Tracks p m) (hp : p.Valid)
    (hd : envelopeStep p c = some d) : d.Tracks p m := by
  unfold Machine.envelopeStep at hd
  split at hd <;> rename_i hst
  · cases hd; exact h
  · exact (h.startAction hp hst).attackStep rfl hd
  · exact h.attackStep (by rw [hst]; rfl) hd
  · cases hd
    rcases decayStep_cases p c with ⟨-, e⟩ | ⟨-, e⟩ <;> rw [e]
    · exact h.atLevel (by rw [hst]; rfl) (e := .sustain) rfl _
    · exact h.atLevel (by rw [hst]; rfl) (by rw [hst]; rfl) _
  · cases hd; exact h
  · cases hd
    rcases releaseStep_cases p c with ⟨-, e⟩ | ⟨-, e⟩ <;> rw [e]
    · exact killAction_tracks p m _
    · exact h.atLevel (by rw [hst]; rfl) (by rw [hst]; rfl) _

/-- A cascade leaves the increment or writes a positive one (R168). -/
theorem recomputeCascade_increase {p : Params} (hp : p.Valid) {rate : BitVec 32} (hrate : rate ≠ 0) (e : EnvState)
    (w : Bool) {c : Channel} (h : 0 ≤ c.reg.sampleIncrease) :
    0 ≤ (recomputeCascade p rate e w c).reg.sampleIncrease := by
  have hout := congrArg (fun x => x.2.1) (recomputeCascade_pitchOutputs p rate e w (c := c) rfl)
  split_ifs at hout
  · exact (incrementOf_pos hp hrate _).le.trans_eq hout.symm
  · exact h.trans_eq hout.symm

theorem recomputeCascade_samePlayback {p : Params} (hp : p.Valid) {rate : BitVec 32} (hrate : rate ≠ 0) (e : EnvState)
    (w : Bool) (c : Channel) : c.SamePlayback (recomputeCascade p rate e w c) := by
  have hinc := recomputeCascade_increase hp hrate e w (c := c)
  have houts := recomputeCascade_sameButOutputs p rate e w c
  generalize recomputeCascade p rate e w c = d at hinc houts
  rw [houts] at hinc ⊢
  exact ⟨id, id, rfl, rfl, rfl, hinc⟩

theorem Channel.Tracks.tick {p : Params} {m : SampleMemory} {c d : Channel} (h : c.Tracks p m) (hp : p.Valid)
    {rate : BitVec 32} (hrate : rate ≠ 0) (hd : tickChannel p rate c = some d) : d.Tracks p m := by
  unfold tickChannel at hd
  split_ifs at hd
  · cases hd; exact killAction_tracks p m c
  · split at hd
    · cases hd
    · rename_i c1 hstep
      have h1 := h.envelopeStep hp hstep
      split_ifs at hd <;> cases hd
      · exact h1
      · exact h1.of_samePlayback (recomputeCascade_samePlayback hp hrate _ _ _)

theorem Channel.Tracks.increment {p : Params} {m : SampleMemory} {c d : Channel} (h : c.Tracks p m)
    (hst : c.state.pastStart = true) (hd : incrementChannel p m c = some d) : d.Tracks p m := by
  refine ⟨?_, incrementChannel_ringTracksNote h.ring h.geometry hst hd⟩
  rcases incrementChannel_cases rfl hd with ⟨-, rfl⟩ | ⟨-, -, rfl⟩ | ⟨-, -, -, -, rfl⟩ | ⟨-, -, -, rfl⟩
  · exact ⟨h.geometry.pending, h.geometry.live⟩
  · exact ⟨h.geometry.pending, h.geometry.live⟩
  · exact ⟨h.geometry.pending, h.geometry.live⟩
  · exact (killAction_tracks p m c).geometry

theorem generateChannel_samePlayback (p : Params) (mode : InterpMode) (m : SampleMemory) (ch : ChanId) (c : Channel) :
    c.SamePlayback (generateChannel p mode m ch c).chan := by
  rcases generateChannel_chan_cases p mode m ch c with hsame | ⟨hst, hpos, hpsg, hid⟩
  · rw [hsame]; exact ⟨id, id, rfl, rfl, rfl, id⟩
  · rw [generateChannel_of_noise p mode m hst hpos hpsg hid, noiseAdvance_eq]
    exact ⟨id, id, rfl, rfl, rfl, id⟩

/-- After a command that writes one channel, that channel is the one written (R282). -/
theorem Channel.Tracks.of_write {p : Params} {m : SampleMemory} {c : Channel} (h : c.Tracks p m) (s : State)
    (ch : ChanId) (r : Word) : (((s.setChan ch c).setRes r).chan ch).Tracks p m := by
  rwa [State.setRes_chan, State.chan_setChan_same]

/-- Every command that completes keeps each channel's geometry and ring. -/
theorem exec_keeps_tracks {i : Instr} {s t : State} (hp : s.params.Valid)
    (h : ∀ ch, (s.chan ch).Tracks s.params s.mem) (hexec : exec i s = .next t) (d : ChanId) :
    (t.chan d).Tracks s.params s.mem := by
  by_cases hch : channelOf i = some d
  case neg => rw [(exec_next_written hexec).chan_eq hch]; exact h d
  have hold := h d
  cases i with
  | nop | initTables | setInterp | setRate => cases hch
  | triggerStart _ o =>
    cases hch
    obtain ⟨-, hcheck, rfl⟩ := execTriggerStart_next hexec
    exact (hold.triggerLatch hcheck).of_write _ _ _
  | noteParams _ o =>
    cases hch
    obtain ⟨-, -, -, -, rfl⟩ := execNoteParams_next hexec
    exact (hold.of_samePlayback (noteLatch_samePlayback _ o)).of_write _ _ _
  | release _ =>
    cases hch
    obtain ⟨-, hidle, hstart, rfl⟩ := execRelease_next hexec
    have hpast : (s.chan d).state.pastStart = true :=
      by_contra fun hpast => hstart (EnvState.eq_start_of_not_pastStart hidle hpast)
    exact (hold.of_samePlayback (releaseAction_samePlayback hpast)).of_write _ _ _
  | kill _ =>
    cases hch; cases hexec
    exact (killAction_tracks _ _ _).of_write _ _ _
  | trackUpdate _ f o =>
    cases hch
    obtain ⟨-, -, ⟨-, rfl⟩ | ⟨-, -, rfl⟩⟩ := execTrackUpdate_next hexec
    · exact hold
    · exact (hold.of_samePlayback (trackParts_samePlayback f o _ _)).of_write _ _ _
  | update _ =>
    cases hch
    obtain ⟨-, ⟨-, rfl⟩ | ⟨-, hrate, c, htick, rfl⟩⟩ := execUpdate_next hexec
    · exact hold
    · exact (hold.tick hp hrate htick).of_write _ _ _
  | generateSample _ =>
    cases hch
    obtain ⟨-, rfl⟩ := execGenerateSample_next hexec
    exact (hold.of_samePlayback (generateChannel_samePlayback ..)).of_write _ _ _
  | incrementSample _ =>
    cases hch
    obtain ⟨-, ⟨-, rfl⟩ | ⟨hpast, c, hmoved, rfl⟩⟩ := execIncrementSample_next hexec
    · exact hold
    · exact (hold.increment hpast hmoved).of_write _ _ _
  | read _ sel =>
    obtain ⟨r, -, rfl⟩ := execRead_next hexec
    exact hold

/-- Settles O58: a step either does nothing or runs one command, and no command writes memory or a parameter. -/
theorem everyStepKeepsTheRingInvariant : Obligations.EveryStepKeepsTheRingInvariant := by
  unfold Obligations.EveryStepKeepsTheRingInvariant
  intro s t hp h hstep ch
  rcases step_next_cases hstep with ⟨-, rfl⟩ | ⟨x, rest, i, -, -, hexec⟩
  · exact h ch
  · obtain ⟨hgeometry, hring⟩ := exec_keeps_tracks (s := { s with commands := rest }) hp
      (fun d => ⟨(h d).1, (h d).2⟩) hexec ch
    rw [(exec_next_written hexec).params_eq, (exec_next_written hexec).mem_eq]
    exact ⟨hgeometry, hring⟩

end Sys2Proof.Machine

/-! PROOFS. The statements of spec/45_interpolation.md: the linear kernel (R222), the Lagrange kernels as interpolating
polynomials (R223, R224), and where the kernels agree (R226, R227). -/

namespace Sys2Proof.Machine

/-! ### Truncation (R10, R220) -/

/-- Truncation toward zero stays above every integer below the value (R10). -/
theorem le_ratTrunc {v : Rat} {n : Int} (h : (n : Rat) ≤ v) : n ≤ ratTrunc v := by
  rcases le_or_gt 0 v with hv | hv
  · rw [ratTrunc_of_nonneg hv]
    exact Int.le_floor.mpr h
  · rw [ratTrunc_of_neg hv]
    exact_mod_cast h.trans (Int.le_ceil v)

/-- Truncation toward zero stays below every integer above the value (R10). -/
theorem ratTrunc_le {v : Rat} {n : Int} (h : v ≤ n) : ratTrunc v ≤ n := by
  rcases le_or_gt 0 v with hv | hv
  · rw [ratTrunc_of_nonneg hv]
    exact_mod_cast (Int.floor_le v).trans h
  · rw [ratTrunc_of_neg hv]
    exact Int.ceil_le.mpr h

@[simp] theorem ratTrunc_intCast (n : Int) : ratTrunc n = n := le_antisymm (ratTrunc_le le_rfl) (le_ratTrunc le_rfl)

/-! ### Linear (R222) -/

/-- A step of a fraction of the way from `a` up to `b` stays between them. -/
theorem add_mul_sub_mem {a b f : Rat} (h0 : 0 ≤ f) (h1 : f ≤ 1) (hab : a ≤ b) :
    a ≤ a + f * (b - a) ∧ a + f * (b - a) ≤ b := by
  have hstep : 0 ≤ f * (b - a) := mul_nonneg h0 (sub_nonneg.mpr hab)
  have hrest : f * (b - a) ≤ b - a := mul_le_of_le_one_left (sub_nonneg.mpr hab) h1
  exact ⟨by linarith, by linarith⟩

/-- Strictly inside the fraction range the step lies strictly between. -/
theorem add_mul_sub_mem_strict {a b f : Rat} (h0 : 0 < f) (h1 : f < 1) (hab : a < b) :
    a < a + f * (b - a) ∧ a + f * (b - a) < b := by
  have hstep : 0 < f * (b - a) := mul_pos h0 (sub_pos.mpr hab)
  have hrest : f * (b - a) < b - a := mul_lt_of_lt_one_left (sub_pos.mpr hab) h1
  exact ⟨by linarith, by linarith⟩

/-- The same point, seen as a step from the other end. -/
theorem add_mul_sub_swap (a b f : Rat) : a + f * (b - a) = b + (1 - f) * (a - b) := by ring

/-- Settles O50: a falling pair is a rising one seen from its other end, and truncation passes no integer bound. -/
theorem linearStaysBetweenItsSamples : Obligations.LinearStaysBetweenItsSamples := by
  unfold Obligations.LinearStaysBetweenItsSamples
  intro p win f h0 h1 s0 s1 v
  have hv : v = s0 + f * (s1 - s0) := rfl
  have hswap : v = s1 + (1 - f) * (s0 - s1) := add_mul_sub_swap _ _ f
  refine ⟨hv, fun hf => ?_, fun heq => ?_, fun hf hlt => ?_, fun hf hlt => ?_, fun hle => ?_, fun hle => ?_⟩
  · rw [hv, hf, zero_mul, add_zero]
  · rw [hv, heq, sub_self, mul_zero, add_zero]
  · exact add_mul_sub_mem_strict hf h1 (Int.cast_lt.mpr hlt)
  · rw [hswap]
    exact add_mul_sub_mem_strict (by linarith) (by linarith) (Int.cast_lt.mpr hlt)
  · obtain ⟨hlo, hhi⟩ := add_mul_sub_mem h0 h1.le (Int.cast_le.mpr hle)
    exact ⟨le_ratTrunc hlo, ratTrunc_le hhi⟩
  · obtain ⟨hlo, hhi⟩ := add_mul_sub_mem (f := 1 - f) (by linarith) (by linarith) (Int.cast_le.mpr hle)
    rw [hswap]
    exact ⟨le_ratTrunc hlo, ratTrunc_le hhi⟩

/-! ### Lagrange (R223, R224) -/

/-- Settles O46: written in the coefficients of the polynomial, the samples and its value at the fraction are sums of
four monomials, and R223's combination of the one is the other. -/
theorem lagrange4IsTheCubicInterpolant : Obligations.Lagrange4IsTheCubicInterpolant := by
  unfold Obligations.Lagrange4IsTheCubicInterpolant
  intro p win f P hdeg hwin
  unfold lagrange4Kernel l4First l4Last
  rw [← hwin (-1) (by decide), ← hwin 0 (by decide), ← hwin 1 (by decide), ← hwin 2 (by decide)]
  simp only [Polynomial.eval_eq_sum_range' (Nat.lt_succ_of_le hdeg), Finset.sum_range_succ, Finset.sum_range_zero]
  push_cast
  ring

/-- Settles O47: as for R223, with six monomials; the shifted variable is expanded away. -/
theorem lagrange6IsTheQuinticInterpolant : Obligations.Lagrange6IsTheQuinticInterpolant := by
  unfold Obligations.Lagrange6IsTheQuinticInterpolant
  intro p win f P hdeg hwin
  unfold lagrange6Kernel l6First l6Last
  rw [← hwin (-2) (by decide), ← hwin (-1) (by decide), ← hwin 0 (by decide), ← hwin 1 (by decide),
    ← hwin 2 (by decide), ← hwin 3 (by decide)]
  simp only [Polynomial.eval_eq_sum_range' (Nat.lt_succ_of_le hdeg), Finset.sum_range_succ, Finset.sum_range_zero]
  push_cast
  ring

/-! ### Agreement at fraction 0 and on a constant window (R227) -/

/-- A kernel whose value is a sample returns it sign-extended: truncation changes no integer, and it fits (R220). -/
theorem kernelWord_of_sample {p : Params} {mode : InterpMode} {win : List Sample} {f inc : Rat} {x : Sample}
    (h : kernelValue p mode win f inc = some (x.toInt : Rat)) :
    kernelWord p mode win f inc = BitVec.ofInt 32 x.toInt := by
  have hlo := BitVec.le_toInt x
  have hhi := BitVec.toInt_lt (x := x)
  rw [kernelWord_of_value h (by rw [ratTrunc_intCast]; omega) (by rw [ratTrunc_intCast]; omega), ratTrunc_intCast]

/-- At fraction 0 the linear kernel stands on its first sample, and the Lagrange kernels on a node (R222 to R224). -/
theorem kernelValue_zero_fraction (p : Params) {mode : InterpMode} (win : List Sample) (inc : Rat)
    (hmode : mode ≠ .sinc) : kernelValue p mode win 0 inc = some (winRat p win 0) := by
  cases mode with
  | none => rfl
  | linear =>
    refine congrArg some ?_
    rw [linearKernel, zero_mul, add_zero]
  | lagrange4 =>
    refine congrArg some ?_
    unfold lagrange4Kernel
    ring
  | lagrange6 =>
    refine congrArg some ?_
    unfold lagrange6Kernel
    ring
  | sinc => exact absurd rfl hmode

theorem kernelWord_zero_fraction (p : Params) {mode : InterpMode} (win : List Sample) (inc : Rat)
    (hmode : mode ≠ .sinc) : kernelWord p mode win 0 inc = BitVec.ofInt 32 (winAt p win 0).toInt :=
  kernelWord_of_sample (kernelValue_zero_fraction p win inc hmode)

/-- The half-width covers the six nodes of LAGRANGE6 and the taps of the sinc (R8, R34). -/
theorem le_half (p : Params) : 3 ≤ p.half ∧ p.sincWidth ≤ p.half := ⟨le_max_left _ _, le_max_right _ _⟩

theorem mem_sincTaps {p : Params} {i : Int} (h : i ∈ sincTaps p) : -(p.sincWidth : Int) < i ∧ i ≤ p.sincWidth := by
  rw [sincTaps_eq] at h
  obtain ⟨j, hj, rfl⟩ := List.mem_map.mp h
  have := List.mem_range.mp hj
  exact ⟨by omega, by omega⟩

/-- On a constant window a Lagrange kernel is the constant polynomial, and the sinc's weight sum cancels. -/
theorem kernelValue_constant {p : Params} {mode : InterpMode} {win : List Sample} {f inc v : Rat}
    (hwin : ∀ k : Int, -(p.half : Int) ≤ k → k ≤ p.half → winRat p win k = v)
    (hsum : mode = .sinc → sincWeightSum p f inc ≠ 0) : kernelValue p mode win f inc = some v := by
  obtain ⟨hthree, hwidth⟩ := le_half p
  have hnode : ∀ k : Int, -3 ≤ k → k ≤ 3 → (Polynomial.C v).eval (k : Rat) = winRat p win k :=
    fun k hlo hhi => by rw [Polynomial.eval_C, hwin k (by omega) (by omega)]
  cases mode with
  | none => exact congrArg some (hwin 0 (by omega) (by omega))
  | linear =>
    refine congrArg some ?_
    rw [linearKernel, hwin 0 (by omega) (by omega), hwin 1 (by omega) (by omega), sub_self, mul_zero, add_zero]
  | lagrange4 =>
    have hcubic := lagrange4IsTheCubicInterpolant p win f (Polynomial.C v) (by simp) fun k hk =>
      hnode k (by revert k; decide) (by revert k; decide)
    exact congrArg some (hcubic.trans Polynomial.eval_C)
  | lagrange6 =>
    have hquintic := lagrange6IsTheQuinticInterpolant p win f (Polynomial.C v) (by simp) fun k hk =>
      hnode k (by revert k; decide) (by revert k; decide)
    exact congrArg some (hquintic.trans Polynomial.eval_C)
  | sinc =>
    have htaps : (sincTaps p).map (fun i => winRat p win i * sincWeight p f inc i)
        = (sincTaps p).map fun i => v * sincWeight p f inc i := by
      refine List.map_congr_left fun i hi => ?_
      obtain ⟨hlo, hhi⟩ := mem_sincTaps hi
      rw [hwin i (by omega) (by omega)]
    rw [kernelValue_sinc (hsum rfl), htaps, List.sum_map_mul_left]
    exact congrArg some (mul_div_cancel_right₀ v (hsum rfl))

/-- Past Start the tables are ready (R241). -/
theorem State.GatesHold.tablesReady {s : State} (h : s.GatesHold) {ch : ChanId}
    (hpast : (s.chan ch).state.pastStart = true) : s.cfg.tablesReady = true := by
  by_contra hready
  rw [h.tables (Bool.eq_false_of_not_eq_true hready) ch] at hpast
  cases hpast

/-- In playback `win[0]` is the element at the integer part of the position (R198, R221). -/
theorem Channel.RingTracksNote.winAt_zero {p : Params} {m : SampleMemory} {c : Channel} (h : c.RingTracksNote p m)
    (hpast : c.state.pastStart = true) (hpcm : c.reg.format ≠ .psg) (hpos : 0 ≤ c.reg.samplePosition) :
    winAt p c.ring.win 0 = sampleRead m c.reg.source (ratFloor c.reg.samplePosition).toNat := by
  obtain ⟨-, -, U, hindex, -, hwin⟩ := h.playing hpast hpcm hpos
  rw [hwin 0 (by omega) (by omega), add_zero, feed, ← hindex, Int.toNat_natCast]

/-- At an integral position every mode but the sinc returns `win[0]`, NONE by its memory read (R191, R221, R227). -/
theorem pcmSample_integral {p : Params} {m : SampleMemory} {c : Channel} {mode : InterpMode} (hmode : mode ≠ .sinc)
    (hnow : winAt p c.ring.win 0 = sampleRead m c.reg.source (ratFloor c.reg.samplePosition).toNat)
    (hint : Int.fract c.reg.samplePosition = 0) :
    pcmSample p mode m c = BitVec.ofInt 32 (winAt p c.ring.win 0).toInt := by
  have hfrac : ratFrac c.reg.samplePosition = 0 := hint
  unfold pcmSample
  split_ifs with hnone
  · rw [hnow]; rfl
  · rw [hfrac, kernelWord_zero_fraction p _ _ hmode]

/-- In a good state at an integral position the result is `win[0]` in every mode but the sinc (R191, R198, R227). -/
theorem execGenerateSample_integral {ch : ChanId} {s : State} (hgood : s.Good)
    (hpast : (s.chan ch).state.pastStart = true) (hpcm : (s.chan ch).reg.format ≠ .psg)
    (hpos : 0 ≤ (s.chan ch).reg.samplePosition) (hint : Int.fract (s.chan ch).reg.samplePosition = 0)
    {mode : InterpMode} (hmode : mode ≠ .sinc) :
    exec (.generateSample ch) { s with cfg := { s.cfg with interp := mode } }
      = .next { s with
          cfg := { s.cfg with interp := mode }
          res := BitVec.ofInt 32 (winAt s.params (s.chan ch).ring.win 0).toInt } := by
  have hnow := (hgood.channels ch).ring.winAt_zero hpast hpcm hpos
  have hsample := generateChannel_of_pcm (ch := ch) s.params mode s.mem hpast hpos hpcm
  rw [pcmSample_integral hmode hnow hint] at hsample
  exact execGenerateSample_of_res (s := { s with cfg := { s.cfg with interp := mode } })
    (hgood.gates.tablesReady hpast) hsample

/-- Settles O48: the kernels agree on the window, and in playback its middle is what NONE reads from memory. -/
theorem kernelsAgreeAtTheirBoundaries : Obligations.KernelsAgreeAtTheirBoundaries := by
  unfold Obligations.KernelsAgreeAtTheirBoundaries
  refine ⟨fun p mode win inc hmode => kernelWord_zero_fraction p win inc hmode,
    fun p mode win f inc x hwin hsum => kernelWord_of_sample (kernelValue_constant (fun k hlo hhi => ?_) hsum),
    fun ch s hgood hpast hpcm hpos hint =>
      ⟨_, fun mode hmode => execGenerateSample_integral hgood hpast hpcm hpos hint hmode⟩⟩
  rw [winRat, hwin k hlo hhi]

/-! ### The sinc at fraction 0 (R225 to R227) -/

/-- The weight of a tap `j` samples away at fraction 0 and full step: both tables at the same distance (R227). -/
def integerWeight (p : Params) (j : Nat) : Rat :=
  sincEntry p (j * p.sincResolution) * windowEntry p (j * p.sincResolution)

theorem sincWeight_zero_fraction (p : Params) {inc : Rat} (hinc : inc ≤ 1) (i : Int) :
    sincWeight p 0 inc i = integerWeight p i.natAbs := by
  have hshift : sincShift p 0 = 0 := by simp [sincShift, ratFloor_eq]
  have hstep : sincStep p inc = p.sincResolution := if_neg (not_lt.mpr hinc)
  have hdist : (0 - i * (p.sincResolution : Int)).natAbs = i.natAbs * p.sincResolution := by
    rw [zero_sub, Int.natAbs_neg, Int.natAbs_mul, Int.natAbs_natCast]
  unfold sincWeight integerWeight
  rw [hshift, hstep]
  simp only [zero_mul, Int.zero_ediv, hdist]

/-- The taps of R225 at fraction 0 and increment at most 1, weighted by distance. -/
theorem sincTaps_zero_fraction_sum (p : Params) {inc : Rat} (hinc : inc ≤ 1) (g : Int → Rat) :
    ((sincTaps p).map fun i => g i * sincWeight p 0 inc i).sum
      = ∑ i ∈ Finset.Icc (-((p.sincWidth : Int) - 1)) p.sincWidth, g i * integerWeight p i.natAbs := by
  simp only [sincTaps_sum, sincWeight_zero_fraction p hinc]

/-- A full window of zeros with a single 1, at offset `j`. -/
def impulseWindow (p : Params) (j : Nat) : List Sample := (List.replicate (2 * p.half + 1) 0).set (j + p.half) 1

theorem impulseWindow_length (p : Params) (j : Nat) : (impulseWindow p j).length = 2 * p.half + 1 := by
  simp [impulseWindow]

theorem winRat_impulseWindow (p : Params) (j : Nat) {k : Int} (hlo : -(p.half : Int) ≤ k) (hhi : k ≤ p.half) :
    winRat p (impulseWindow p j) k = if k = j then 1 else 0 := by
  have hsize : (k + (p.half : Int)).toNat < 2 * p.half + 1 := by omega
  rw [winRat, winAt, if_pos (by omega), impulseWindow, List.getElem?_set, List.length_replicate]
  by_cases hk : k = j
  · rw [if_pos hk, if_pos (by omega), if_pos (by omega)]
    rfl
  · rw [if_neg hk, if_neg (by omega), List.getElem?_replicate, if_pos hsize]
    rfl

/-- The sinc has a value where its weight sum is not 0, and then it is the quotient (R225). -/
theorem sincKernel_eq_some_iff {p : Params} {win : List Sample} {f inc v : Rat} :
    sincKernel p win f inc = some v ↔ sincWeightSum p f inc ≠ 0 ∧
      ((sincTaps p).map fun i => winRat p win i * sincWeight p f inc i).sum = v * sincWeightSum p f inc := by
  unfold sincKernel
  dsimp only
  split_ifs with hsum
  · exact ⟨nofun, fun h => absurd hsum h.1⟩
  · rw [Option.some_inj, div_eq_iff hsum]
    exact (and_iff_right hsum).symm

/-- Where the weights at 1..W samples are 0, a weighted sum of the taps is its centre term (R227). -/
theorem integerWeight_sum_eq_center {p : Params} (hwidth : 1 ≤ p.sincWidth)
    (hzero : ∀ j, 1 ≤ j → j ≤ p.sincWidth → integerWeight p j = 0) (g : Int → Rat) :
    ∑ i ∈ Finset.Icc (-((p.sincWidth : Int) - 1)) p.sincWidth, g i * integerWeight p i.natAbs
      = g 0 * integerWeight p 0 := by
  refine Finset.sum_eq_single (0 : Int) (fun i hi hne => ?_) fun hmem => absurd (Finset.mem_Icc.mpr ?_) hmem
  · obtain ⟨hlo, hhi⟩ := Finset.mem_Icc.mp hi
    rw [hzero i.natAbs (by omega) (by omega), mul_zero]
  · exact ⟨by omega, by omega⟩

/-- An impulse at offset `j` picks the weight of that tap out of the sum. -/
theorem impulseWindow_sum {p : Params} {j : Nat} (hpos : 1 ≤ j) (hj : j ≤ p.sincWidth) :
    ∑ i ∈ Finset.Icc (-((p.sincWidth : Int) - 1)) p.sincWidth,
      winRat p (impulseWindow p j) i * integerWeight p i.natAbs = integerWeight p j := by
  obtain ⟨-, hwidth⟩ := le_half p
  rw [Finset.sum_eq_single (j : Int) (fun i hi hne => ?_) fun hmem => absurd (Finset.mem_Icc.mpr ?_) hmem,
    winRat_impulseWindow p j (by omega) (by omega), if_pos rfl, one_mul, Int.natAbs_natCast]
  · obtain ⟨hlo, hhi⟩ := Finset.mem_Icc.mp hi
    rw [winRat_impulseWindow p j (by omega) (by omega), if_neg hne, zero_mul]
  · exact ⟨by omega, by omega⟩

theorem sincWeightSum_zero_fraction (p : Params) {inc : Rat} (hinc : inc ≤ 1) :
    sincWeightSum p 0 inc
      = ∑ i ∈ Finset.Icc (-((p.sincWidth : Int) - 1)) p.sincWidth, 1 * integerWeight p i.natAbs := by
  simp only [sincWeightSum, sincTaps_sum, sincWeight_zero_fraction p hinc, one_mul]

/-- At fraction 0 the sinc returns `win[0]` of every full window exactly when only its centre weight is not 0: the
impulse windows single out every other weight (R227). -/
theorem sincKernel_zero_fraction_iff {p : Params} {inc : Rat} (hwidth : 1 ≤ p.sincWidth) (hinc : inc ≤ 1) :
    (∀ win : List Sample, win.length = 2 * p.half + 1 → sincKernel p win 0 inc = some (winRat p win 0)) ↔
      integerWeight p 0 ≠ 0 ∧ ∀ j, 1 ≤ j → j ≤ p.sincWidth → integerWeight p j = 0 := by
  simp only [sincKernel_eq_some_iff, sincTaps_zero_fraction_sum p hinc, sincWeightSum_zero_fraction p hinc]
  constructor
  · intro hsinc
    have hzero : ∀ j, 1 ≤ j → j ≤ p.sincWidth → integerWeight p j = 0 := fun j hpos hj => by
      obtain ⟨-, hvalue⟩ := hsinc (impulseWindow p j) (impulseWindow_length p j)
      rwa [impulseWindow_sum hpos hj, winRat_impulseWindow p j (by omega) (by omega), if_neg (by omega),
        zero_mul] at hvalue
    obtain ⟨hsum, -⟩ := hsinc (impulseWindow p 0) (impulseWindow_length p 0)
    rw [integerWeight_sum_eq_center hwidth hzero, one_mul] at hsum
    exact ⟨hsum, hzero⟩
  · rintro ⟨hcenter, hzero⟩ win -
    rw [integerWeight_sum_eq_center hwidth hzero, integerWeight_sum_eq_center hwidth hzero, one_mul]
    exact ⟨hcenter, rfl⟩

/-- Settles O49: the required entries of R226 make the centre weight 1. -/
theorem sincAgreesAtZeroFractionIffItsTablesDo : Obligations.SincAgreesAtZeroFractionIffItsTablesDo := by
  unfold Obligations.SincAgreesAtZeroFractionIffItsTablesDo
  intro p inc hwidth _ hinc
  have hiff := sincKernel_zero_fraction_iff hwidth hinc
  unfold integerWeight at hiff
  rw [zero_mul] at hiff
  refine ⟨hiff, fun hp => hiff.trans (and_iff_right ?_)⟩
  rw [sincEntry_zero hp, windowEntry_zero hp, one_mul]
  exact one_ne_zero

end Sys2Proof.Machine

/-! PROOFS. The statements of spec/46_system.md: NOP, the gate INIT_TABLES opens (R240, R241), the two configuration
registers SET_INTERP and SET_RATE store (R242, R243), and the fields READ returns (R244). -/

namespace Sys2Proof.Machine

/-! ### NOP (R240) -/

/-- Settles O5: NOP is the write of RES alone. -/
theorem nopChangesOnlyRes : Obligations.NopChangesOnlyRes := by
  unfold Obligations.NopChangesOnlyRes
  exact fun _ => rfl

/-! ### The gate of INIT_TABLES (R241) -/

/-- The gate is the first check of a gated command (R241; log 13). -/
theorem exec_of_gate_closed {i : Instr} {s : State} (hready : s.cfg.tablesReady = false)
    (hgated : gatedByTables i = true) : exec i s = .refused .tablesNotReady := by
  cases i with
  | nop | initTables | setInterp | setRate | kill | read => cases hgated
  | triggerStart | noteParams | release | trackUpdate | update | generateSample | incrementSample =>
    exact if_pos hready

/-- The operand checks of TRIGGER_START have refusals of their own (F6, F7, F8). -/
theorem triggerCheck_ne_tablesNotReady (p : Params) (o : TriggerOps) :
    triggerCheck p o ≠ some .tablesNotReady := by
  unfold triggerCheck
  split_ifs <;> nofun

/-- F5 from a gate before an outcome that is never F5 itself says that the gate is closed. -/
theorem gate_closed_of_refused {b : Bool} {o : Host.Outcome State Fault Refusal} (ho : o ≠ .refused .tablesNotReady)
    (h : (if b = false then .refused .tablesNotReady else o) = Host.Outcome.refused Refusal.tablesNotReady) :
    b = false :=
  by_contra fun hb => ho (by rwa [if_neg hb] at h)

/-- F5 is given only by a gated command, and only while the gate is closed (R241, R252). -/
theorem gated_of_tablesNotReady {i : Instr} {s : State} (h : exec i s = .refused .tablesNotReady) :
    s.cfg.tablesReady = false ∧ gatedByTables i = true := by
  cases i with
  | nop | initTables | kill => cases h
  | setInterp | setRate | read =>
    simp only [exec, execSetInterp, execSetRate, execRead] at h
    split at h <;> cases h
  | triggerStart ch o =>
    refine ⟨gate_closed_of_refused ?_ h, rfl⟩
    cases hcheck : triggerCheck s.params o with
    | none => nofun
    | some r => rintro ⟨⟩; exact triggerCheck_ne_tablesNotReady _ _ hcheck
  | noteParams | release | trackUpdate =>
    refine ⟨gate_closed_of_refused ?_ h, rfl⟩
    split_ifs <;> nofun
  | update ch =>
    refine ⟨gate_closed_of_refused ?_ h, rfl⟩
    split_ifs
    · nofun
    · nofun
    · cases tickChannel s.params s.cfg.sampleRate (s.chan ch) <;> nofun
  | generateSample =>
    refine ⟨gate_closed_of_refused ?_ h, rfl⟩
    nofun
  | incrementSample ch =>
    refine ⟨gate_closed_of_refused ?_ h, rfl⟩
    split_ifs
    · nofun
    · cases incrementChannel s.params s.mem (s.chan ch) <;> nofun

/-- "There is no command that clears `tablesReady`" (R241): of the three commands that write the configuration, two
keep the gate and INIT_TABLES opens it. -/
theorem exec_keeps_tablesReady {i : Instr} {s t : State} (h : exec i s = .next t) (hready : s.cfg.tablesReady = true) :
    t.cfg.tablesReady = true := by
  by_cases hcfg : t.cfg = s.cfg
  · rwa [hcfg]
  · obtain rfl | ⟨m, rfl⟩ | ⟨r, rfl⟩ := exec_writes_cfg h hcfg
    · cases h; rfl
    · obtain ⟨k, -, rfl⟩ := execSetInterp_next h; exact hready
    · obtain ⟨-, rfl⟩ := execSetRate_next h; exact hready

theorem step_keeps_tablesReady {s t : State} (h : step s = .next t) (hready : s.cfg.tablesReady = true) :
    t.cfg.tablesReady = true := by
  obtain ⟨-, rfl⟩ | ⟨x, rest, i, -, -, hexec⟩ := step_next_cases h
  · exact hready
  · exact exec_keeps_tablesReady hexec hready

/-- Settles O6: F5 is exactly the answer of a gated command behind the closed gate, and no step closes the gate. -/
theorem initTablesOpensTheGate : Obligations.InitTablesOpensTheGate := by
  unfold Obligations.InitTablesOpensTheGate
  refine ⟨fun s => ⟨_, rfl, rfl, rfl⟩, fun i s hclosed => ?_, fun i s hopen h => ?_, fun _ _ => step_keeps_tablesReady⟩
  · exact ⟨fun h => (gated_of_tablesNotReady h).2, exec_of_gate_closed hclosed⟩
  · obtain ⟨hclosed, -⟩ := gated_of_tablesNotReady h
    exact absurd (hopen.symm.trans hclosed) nofun

/-! ### The interpolation mode (R242) -/

/-- The five modes have the numbers of R87. -/
theorem interpModeOf_of_mem : ∀ x ∈ [(0#3, InterpMode.none), (1#3, .linear), (2#3, .lagrange4), (3#3, .lagrange6),
    (4#3, .sinc)], interpModeOf x.1 = some x.2 := by
  decide

/-- Modes 5 to 7 are reserved (R87). -/
theorem interpModeOf_of_reserved {mode : BitVec 3} (h : 4 < mode.toNat) : interpModeOf mode = none := by
  revert mode; decide

theorem execSetInterp_of_mode {mode : BitVec 3} {m : InterpMode} (s : State) (h : interpModeOf mode = some m) :
    execSetInterp mode s = .next ((s.setCfg { s.cfg with interp := m }).setRes 0) := by
  rw [execSetInterp, h]

/-- Refusal F2 (R252). -/
theorem execSetInterp_of_reserved {mode : BitVec 3} (s : State) (h : interpModeOf mode = none) :
    execSetInterp mode s = .refused .reservedInterpMode := by
  rw [execSetInterp, h]

/-- Settles O7: SET_INTERP follows the numbering of the modes. -/
theorem setInterpSelectsTheKernel : Obligations.SetInterpSelectsTheKernel := by
  unfold Obligations.SetInterpSelectsTheKernel
  exact fun s => ⟨fun mode m h => execSetInterp_of_mode s (interpModeOf_of_mem (mode, m) h),
    fun _ h => execSetInterp_of_reserved s (interpModeOf_of_reserved h)⟩

/-! ### The sample rate (R243) -/

theorem execSetRate_of_ne_zero {rate : BitVec 32} (s : State) (h : rate ≠ 0) :
    execSetRate rate s = .next ((s.setCfg { s.cfg with sampleRate := rate }).setRes 0) :=
  if_neg h

/-- Refusal F3 (R252). -/
theorem execSetRate_zero (s : State) : execSetRate 0 s = .refused .zeroSampleRate := if_pos rfl

/-- Settles O8: rate 0 is the one check of SET_RATE. -/
theorem setRateStoresTheRate : Obligations.SetRateStoresTheRate := by
  unfold Obligations.SetRateStoresTheRate
  exact fun s => ⟨fun _ => execSetRate_of_ne_zero s, execSetRate_zero s⟩

/-! ### READ (R244) -/

/-- The states have the numbers of R87. -/
theorem stateWord_of_mem : ∀ x ∈ [(EnvState.none, 0#32), (.start, 1), (.attack, 2), (.decay, 3), (.sustain, 4),
    (.release, 5)], BitVec.ofNat 32 x.1.code = x.2 := by
  decide

theorem trackIdWord_some (t : BitVec 8) : trackIdWord (some t) = BitVec.ofNat 32 t.toNat :=
  (BitVec.ofNat_toNat 32 t).symm

section
variable (c : Channel)

theorem readField_state : readField c 0 = some (BitVec.ofNat 32 c.state.code) := rfl

theorem readField_trackId : readField c 1 = some (trackIdWord c.trackId) := rfl

theorem readField_prio : readField c 2 = some (BitVec.ofNat 32 c.prio.toNat) :=
  congrArg some (BitVec.ofNat_toNat 32 c.prio).symm

theorem readField_vol : readField c 3 = some (BitVec.ofNat 32 c.vol) := rfl

theorem readField_panning : readField c 4 = some (BitVec.ofNat 32 c.reg.panning.toNat) :=
  congrArg some (BitVec.ofNat_toNat 32 c.reg.panning).symm

/-- Selectors 5 to 15 are reserved (R87). -/
theorem readField_of_reserved {sel : BitVec 4} (h : 4 < sel.toNat) : readField c sel = none := by
  have hne (k : BitVec 4) (hk : k.toNat ≤ 4) : sel ≠ k := by rintro rfl; omega
  simp only [readField, if_neg (hne 0#4 (by decide)), if_neg (hne 1#4 (by decide)), if_neg (hne 2#4 (by decide)),
    if_neg (hne 3#4 (by decide)), if_neg (hne 4#4 (by decide))]

end

/-- Refusal F4 (R252). -/
theorem execRead_of_reserved (ch : ChanId) {sel : BitVec 4} (s : State) (h : 4 < sel.toNat) :
    execRead ch sel s = .refused .reservedSelector := by
  rw [execRead, readField_of_reserved _ h]

/-- A READ of a selector that names a field writes RES and nothing else. -/
theorem exec_read_of_field {ch : ChanId} {sel : BitVec 4} {s : State} {r : Word}
    (h : readField (s.chan ch) sel = some r) : exec (.read ch sel) s = .next { s with res := r } :=
  execRead_of_field h

/-- Settles O9: READ writes to RES the field its selector names. -/
theorem readReturnsTheSelectedField : Obligations.ReadReturnsTheSelectedField := by
  unfold Obligations.ReadReturnsTheSelectedField
  intro ch s
  refine ⟨fun e n hmem hstate => exec_read_of_field ?_, fun hnone => exec_read_of_field ?_,
    fun t howner => exec_read_of_field ?_, exec_read_of_field (readField_prio _),
    exec_read_of_field (readField_vol _), exec_read_of_field (readField_panning _),
    fun _ => execRead_of_reserved ch s⟩
  · rw [readField_state, hstate]
    exact congrArg some (stateWord_of_mem (e, n) hmem)
  · rw [readField_trackId, hnone, trackIdWord_none]
  · rw [readField_trackId, howner, trackIdWord_some]

end Sys2Proof.Machine

/-! PROOFS. The statement of spec/60_exceptions.md: a command is refused in the cases R252 lists (F2 to F13), and in a
good state it completes in every other, since there neither the attack loop (log 8) nor the loop wrap (log 9) fails to
end. -/

namespace Sys2Proof.Machine

/-! ### The refusals (R252) -/

/-- Refusals F6, F7 and F8. -/
theorem execTriggerStart_of_rejected {ch : ChanId} {o : TriggerOps} {s : State} (hready : s.cfg.tablesReady = true)
    (hreject : ¬ triggerAccepted s.params o) : ∃ r, execTriggerStart ch o s = .refused r := by
  rw [← triggerCheck_eq_none_iff] at hreject
  obtain ⟨r, hcheck⟩ := Option.ne_none_iff_exists'.mp hreject
  exact ⟨r, by rw [execTriggerStart, if_neg (by simp [hready]), hcheck]⟩

/-- Refusal F9. -/
theorem execNoteParams_of_idle {ch : ChanId} (o : NoteOps) {s : State} (hready : s.cfg.tablesReady = true)
    (hidle : (s.chan ch).state = .none) : execNoteParams ch o s = .refused .noNote := by
  rw [execNoteParams, if_neg (by simp [hready]), if_pos hidle]

/-- Refusal F10. -/
theorem execNoteParams_of_reserved {ch : ChanId} {o : NoteOps} {s : State} (hready : s.cfg.tablesReady = true)
    (hst : (s.chan ch).state ≠ .none) (hlen : o.noteLength.toInt = 0 ∨ o.noteLength.toInt < -1) :
    execNoteParams ch o s = .refused .reservedNoteLength := by
  rw [execNoteParams, if_neg (by simp [hready]), if_neg hst]
  exact if_pos hlen

/-- Refusal F11. -/
theorem execRelease_of_silent {ch : ChanId} {s : State} (hready : s.cfg.tablesReady = true)
    (hsilent : (s.chan ch).state = .none ∨ (s.chan ch).state = .start) :
    execRelease ch s = .refused .notSounding := by
  rw [execRelease, if_neg (by simp [hready]), if_pos hsilent]

/-- In the cases R252 lists for it a command is refused, in any state: behind the closed gate by F5, and otherwise by a
check of its own. -/
theorem exec_refused_of_listed {i : Instr} {s : State} (h : refusedByR252 s i) : ∃ r, exec i s = .refused r := by
  by_cases hgate : s.cfg.tablesReady = false ∧ gatedByTables i = true
  · obtain ⟨hclosed, hgated⟩ := hgate
    exact ⟨_, exec_of_gate_closed hclosed hgated⟩
  have hopen (hgated : gatedByTables i = true) : s.cfg.tablesReady ≠ false := fun hclosed => hgate ⟨hclosed, hgated⟩
  have hready (hgated : gatedByTables i = true) := Bool.eq_true_of_not_eq_false (hopen hgated)
  cases i with
  | nop | initTables | kill => cases h
  | setInterp mode => exact ⟨_, execSetInterp_of_reserved s (interpModeOf_of_reserved h)⟩
  | setRate rate => cases h; exact ⟨_, execSetRate_zero s⟩
  | triggerStart ch o => exact execTriggerStart_of_rejected (hready rfl) (h.resolve_left (hopen rfl))
  | noteParams ch o =>
    by_cases hst : (s.chan ch).state = .none
    · exact ⟨_, execNoteParams_of_idle o (hready rfl) hst⟩
    · exact ⟨_, execNoteParams_of_reserved (hready rfl) hst ((h.resolve_left (hopen rfl)).resolve_left hst)⟩
  | release ch => exact ⟨_, execRelease_of_silent (hready rfl) (h.resolve_left (hopen rfl))⟩
  | trackUpdate ch f o =>
    obtain ⟨hf, hmod⟩ := h.resolve_left (hopen rfl)
    exact ⟨_, execTrackUpdate_of_reserved (hready rfl) hf hmod⟩
  | update ch =>
    obtain ⟨hst, hrate⟩ := h.resolve_left (hopen rfl)
    exact ⟨_, execUpdate_of_unset_rate (hready rfl) hst hrate⟩
  | generateSample | incrementSample => exact absurd h (hopen rfl)
  | read ch sel => exact ⟨_, execRead_of_reserved ch s h⟩

/-! ### The loops that end in a good state (R143, R199) -/

/-- The envelope step completes: the attack loop starts below 0, after Start at AMPL_MIN (R26, R142, R143). -/
theorem Channel.Good.envelopeStep_completes {p : Params} {m : SampleMemory} {c : Channel} (h : c.Good p m)
    (hp : p.Valid) : ∃ d, envelopeStep p c = some d := by
  cases hst : c.state with
  | none => exact ⟨c, by rw [envelopeStep, hst]⟩
  | start =>
    obtain ⟨a, hstep, -⟩ := attackStep_below_zero (c := startAction p c) hp.amplMin_neg
    exact ⟨_, (envelopeStep_of_start hst).trans ((envelopeStep_of_attack p rfl).trans hstep)⟩
  | attack =>
    obtain ⟨a, hstep, -⟩ := attackStep_below_zero (h.ampl.attack hst).2
    exact ⟨_, (envelopeStep_of_attack p hst).trans hstep⟩
  | decay => exact ⟨_, envelopeStep_of_decay p hst⟩
  | sustain => exact ⟨_, envelopeStep_of_sustain p hst⟩
  | release => exact ⟨_, envelopeStep_of_release p hst⟩

/-- The envelope step is the one part of a tick that could fail (R140). -/
theorem tickChannel_completes {p : Params} (rate : BitVec 32) {c d : Channel} (hstep : envelopeStep p c = some d) :
    ∃ e, tickChannel p rate c = some e := by
  unfold tickChannel
  rw [hstep]
  split_ifs
  · exact ⟨_, rfl⟩
  · exact ⟨_, (apply_ite some ..).symm⟩

/-- INCREMENT_SAMPLE on a sounding channel completes: a loop that reaches the end of data has a length (R67, R199). -/
theorem Channel.GeometryValid.increment_completes {p : Params} {m : SampleMemory} {c : Channel} (h : c.GeometryValid)
    (hst : c.state.pastStart = true) : ∃ d, incrementChannel p m c = some d := by
  obtain ⟨-, -, hpcm⟩ := h.live hst
  by_cases hf : c.reg.format = .psg
  · exact ⟨_, incrementChannel_of_psg p m hf⟩
  obtain ⟨-, -, hlen⟩ := hpcm hf
  obtain hend | hend := lt_or_ge (c.reg.samplePosition + c.reg.sampleIncrease) c.reg.totalLength
  · exact ⟨_, incrementChannel_below_end p m hf rfl hend⟩
  by_cases hloop : c.reg.repeatMode = .loop
  · exact ⟨_, incrementChannel_of_loop p m hf rfl hend hloop (hlen hloop).ne'⟩
  · exact ⟨_, incrementChannel_of_end p m hf rfl hend hloop⟩

/-! ### Completion in every other case (R250, R252) -/

/-- The modes up to 4 name a kernel (R87). -/
theorem interpModeOf_of_lt_five {mode : BitVec 3} (h : mode.toNat < 5) : ∃ k, interpModeOf mode = some k := by
  rw [← Option.isSome_iff_exists]
  revert mode; decide

/-- Outside the cases R252 lists for it a command completes in a good state. -/
theorem State.Good.exec_completes {s : State} (h : s.Good) {i : Instr} (hi : ¬ refusedByR252 s i) :
    ∃ t, Machine.exec i s = .next t := by
  cases i with
  | nop | initTables | kill => exact ⟨_, rfl⟩
  | setInterp mode =>
    obtain ⟨k, hk⟩ := interpModeOf_of_lt_five (not_le.mp hi)
    exact ⟨_, execSetInterp_of_mode s hk⟩
  | setRate rate => exact ⟨_, execSetRate_of_ne_zero s hi⟩
  | triggerStart ch o =>
    obtain ⟨hopen, haccept⟩ := not_or.mp hi
    have hcheck := (triggerCheck_eq_none_iff s.params o).mpr (not_not.mp haccept)
    exact ⟨_, execTriggerStart_of_accepted (Bool.eq_true_of_not_eq_false hopen) hcheck⟩
  | noteParams ch o =>
    obtain ⟨hopen, hrest⟩ := not_or.mp hi
    obtain ⟨hst, hlen⟩ := not_or.mp hrest
    obtain ⟨hne, hge⟩ := not_or.mp hlen
    exact ⟨_, execNoteParams_of_accepted (Bool.eq_true_of_not_eq_false hopen) hst hne (not_lt.mp hge)⟩
  | release ch =>
    obtain ⟨hopen, hsounding⟩ := not_or.mp hi
    rw [← EnvState.not_pastStart_iff] at hsounding
    exact ⟨_, execRelease_of_sounding (Bool.eq_true_of_not_eq_false hopen) (Bool.eq_true_of_not_eq_false hsounding)⟩
  | trackUpdate ch f o =>
    obtain ⟨hopen, haccept⟩ := not_or.mp hi
    have hready := Bool.eq_true_of_not_eq_false hopen
    have hmod := modType_named_of_accepted haccept
    by_cases hno : (s.chan ch).trackId = none ∨ f = 0
    · exact ⟨_, execTrackUpdate_of_no_effect hready hmod hno⟩
    · obtain ⟨howner, hf⟩ := not_or.mp hno
      exact ⟨_, execTrackUpdate_of_owned hready hmod howner hf⟩
  | update ch =>
    obtain ⟨hopen, hrate⟩ := not_or.mp hi
    have hready := Bool.eq_true_of_not_eq_false hopen
    by_cases hst : (s.chan ch).state = .none
    · exact ⟨_, execUpdate_of_idle hready hst⟩
    · obtain ⟨d, hstep⟩ := (h.channels ch).envelopeStep_completes h.params
      obtain ⟨c, htick⟩ := tickChannel_completes s.cfg.sampleRate hstep
      exact ⟨_, execUpdate_of_tick hready hst (fun hzero => hrate ⟨hst, hzero⟩) htick⟩
  | generateSample ch => exact ⟨_, execGenerateSample_of_ready (Bool.eq_true_of_not_eq_false hi) rfl⟩
  | incrementSample ch =>
    have hready := Bool.eq_true_of_not_eq_false hi
    cases hst : (s.chan ch).state.pastStart with
    | false => exact ⟨_, execIncrementSample_of_silent hready hst⟩
    | true =>
      obtain ⟨c, hmoved⟩ := (h.channels ch).geometry.increment_completes hst
      exact ⟨_, execIncrementSample_of_moved hready hst hmoved⟩
  | read ch sel =>
    obtain ⟨r, hr⟩ := readField_of_le_four (s.chan ch) (Nat.lt_succ_iff.mp (not_le.mp hi))
    exact ⟨_, execRead_of_field hr⟩

/-- Settles O56: the checks of a command are R252's, and past them no loop of a good state runs on. -/
theorem refusalsAreExactlyThoseListed : Obligations.RefusalsAreExactlyThoseListed := by
  unfold Obligations.RefusalsAreExactlyThoseListed
  exact fun _ _ h => ⟨exec_refused_of_listed, h.exec_completes⟩

end Sys2Proof.Machine
